-- ==== Sys2Proof/Word.lean ====
section
/-! DEFINITION. The word types of the Pazelis T4 link and their plainest arithmetic.

Only what the manual treats as bits is a bit vector: the characters of the link, the entry generation, the
tag, the sequence number, the epoch and the wrapping counters.  Instants, durations and saturating counts are
natural numbers, signed offsets are integers.
-/

namespace Sys2Proof

/-- One character of the link (R178: 8 data bits). -/
abbrev Byte := BitVec 8

/-- A 16-bit value: the CRC register (R179) and the notification sequence number (R152). -/
abbrev Word16 := BitVec 16

/-- A 32-bit value: an entry's tag (Table 3-1) and the wrapping port counters (R188). -/
abbrev Word32 := BitVec 32

end Sys2Proof
end

