-- ==== Sys2Proof/Config.lean ====
section
/-! DEFINITION. What the part fixes (capacities, encodings of the part itself) and the free values: results
the manual does not state, as constants without a body, so that no proof can see a value of them.
-/

namespace Sys2Proof

/-- Table 0-7: records in one notification queue (R146). -/
def Config.queueCapacity : Nat := 16

/-- Table 0-7: requests in one request FIFO (R185). -/
def Config.fifoCapacity : Nat := 4

/-- R185: responses of one port that may be pending at its transmit arbiter. -/
def Config.responseCapacity : Nat := 4

/-- Table 0-7: entries each port may hold without drawing on the pool (R48). -/
def Config.reservedEntries : Nat := 8

/-- Table 0-7: slots of the shared pool (R48). -/
def Config.poolCapacity : Nat := 32

/-- One past the last value of the run-time scale (R1: 0 to 2^64 − 1). -/
def Config.runTimeLimit : Nat := 2 ^ 64

/-- R1: REFCLK cycles of one run-time advance. -/
def Config.cyclesPerAdvance : Nat := 10

/-- R3: run-time microseconds of one millisecond. -/
def Config.microsPerMilli : Nat := 1000

/-- R79: a position whose late mark is clear fires less than this many microseconds after its due, the shortest period
(model's choice, notes/assumptions/31). -/
def Config.firingLag : Nat := 100

/-- R181: a gap of more than this many microseconds inside a frame discards the frame. -/
def Config.gapLimit : Nat := 1000

/-- R184: microseconds at space that make a break. -/
def Config.breakTime : Nat := 2000

/-- R179: the SYNC byte. -/
def Config.sync : Byte := 0xA5

/-- R179: the generator polynomial of the CRC. -/
def Config.crcPolynomial : Word16 := 0x1021

/-- R179: the value the CRC register starts at. -/
def Config.crcStart : Word16 := 0xFFFF

/-- R189: the part code GET_INFO answers. -/
def Config.partCode : Nat := 0x0A74

/-- R189: the revision GET_INFO answers for the parts the manual describes. -/
def Config.revision : Nat := 0x01

/-- FREE VALUE (notes/assumptions/3). Run time after the advance taken at 2^64 − 1: the manual defines no
behaviour for the end of the range (1.1, note after Table 1-1).  Applied to `State.freeCount`. -/
opaque Config.runTimePastEnd : Nat → BitVec 64

/-- FREE VALUE (notes/assumptions/4). The recorded end of a duration whose exact end does not fit in 64 bits
(R3: no rule of the manual deals with such an overflow).  A function of the start and the length. -/
opaque Config.durationPastEnd : Nat → Nat → BitVec 64

/-- FREE VALUE (notes/assumptions/5). Whether the PEER_RESET record of a port reset reaches a port's queue
before the records of the authority's end by the same reset (R23, R158: "in either order").
Applied to `State.freeCount` and the number of the receiving port. -/
opaque Config.peerResetFirst : Nat → Fin 4 → Bool

end Sys2Proof
end

