-- ==== Sys2Proof/Syntax.lean ====
section
/-! DEFINITION. The commands of the Pazelis T4: one constructor per row of the table of operations and events.

A request command (READ_TIME … PORT_RESET, UNKNOWN_REQUEST) names the PORT that takes the request at the head
of its request FIFO; the request's tag, code and arguments are the bytes of that FIFO's head (R185, R186, R194).
An event command names the pin, port, line or input at which the event is taken and, for a character or an
edge, what was seen there.
-/

namespace Sys2Proof

/-- Ports P0 to P3; a port number in a record is 0 to 3 (Conventions, Names). -/
abbrev Port := Fin 4

/-- Trigger lines TRG0 to TRG7. -/
abbrev Line := Fin 8

/-- Capture inputs CAP0 to CAP3. -/
abbrev Input := Fin 4

/-- Entry ids 0 to 63 (R42). -/
abbrev EntryId := Fin 64

/-- A level of a trigger line or of a capture pin. -/
inductive Level where
  | low
  | high
  deriving DecidableEq, Repr

/-- The two moments of a character on a receive line that reach the receiver (R178, R181, R184; notes/assumptions/13
and 14). -/
inductive CharMoment where
  /-- The line changes from mark to space: the start bit. -/
  | starts
  /-- The end of the stop bit, found at mark. -/
  | endsAtMark
  /-- The end of the stop bit, found at space, at which the line has been without interruption since run time `t`. -/
  | endsAtSpace (t : Nat)
  deriving DecidableEq, Repr

/-- The commands, in the table's order. -/
inductive Instr where
  /-- RUN_TIME_ADVANCE (R1): the end of the tenth REFCLK cycle. -/
  | runTimeAdvance
  /-- ADJUSTED_ADVANCE (R34): the advance at which the slew count reaches K. -/
  | adjustedAdvance
  /-- SECOND_BOUNDARY (R12, R30): the boundary event of the last advance. -/
  | secondBoundary
  /-- CALENDAR_END (R13, R37): the advance by which civil time would reach 2200-01-01. -/
  | calendarEnd
  | readTime (p : Port)
  | claimAuthority (p : Port)
  | releaseAuthority (p : Port)
  /-- LEASE_EXPIRY (R21). -/
  | leaseExpiry
  | setCivil (p : Port)
  | stepCivil (p : Port)
  | cancelStep (p : Port)
  | slewCivil (p : Port)
  | invalidateCivil (p : Port)
  | createEntry (p : Port)
  | queryEntry (p : Port)
  | listEntries (p : Port)
  | cancelEntry (p : Port)
  | suspendEntry (p : Port)
  | resumeEntry (p : Port)
  /-- MONO_FIRING (R69, R71): the due head of the MONO due list fires. -/
  | monoFiring
  /-- CIVIL_FIRING (R98, R99): the due head of the CIVIL due list fires. -/
  | civilFiring
  | claimLine (p : Port)
  | releaseLine (p : Port)
  | driveLine (p : Port)
  /-- PULSE_END (R119) of line `l`. -/
  | pulseEnd (l : Line)
  | claimInput (p : Port)
  | releaseInput (p : Port)
  /-- CAPTURE_EDGE (R130, R135): the pin of input `i` is seen at `level`. -/
  | captureEdge (i : Input) (level : Level)
  /-- HOLDOFF_EXPIRY (R139) of input `i`. -/
  | holdoffExpiry (i : Input)
  /-- TRANSMIT_START (R172): port `p`'s arbiter starts a frame. -/
  | transmitStart (p : Port)
  /-- NOTE_TRANSMISSION_END (R164). -/
  | noteTransmissionEnd (p : Port)
  /-- RESPONSE_TRANSMISSION_END (R172, R190). -/
  | responseTransmissionEnd (p : Port)
  /-- ACK_FRAME (R165, R166): port `p`'s engine takes the oldest ACK frame handed to it. -/
  | ackFrame (p : Port)
  /-- ACK_TIMEOUT (R167). -/
  | ackTimeout (p : Port)
  /-- BACKOFF_EXPIRY (R168). -/
  | backoffExpiry (p : Port)
  | setPortConfig (p : Port)
  /-- FRAME_COMPLETE (R182): `b` is taken as the last character of a frame. -/
  | frameComplete (p : Port) (b : Byte)
  /-- LENGTH_FAULT (R180): `b` is taken as a LEN byte of 0 or above 200. -/
  | lengthFault (p : Port) (b : Byte)
  /-- GAP_EXPIRY (R181). -/
  | gapExpiry (p : Port)
  /-- BREAK (R184). -/
  | breakSeen (p : Port)
  /-- UNKNOWN_REQUEST (R186): a payload shorter than 2 bytes or a code that is not one of the 24. -/
  | unknownRequest (p : Port)
  | getPortStatus (p : Port)
  | clearFaults (p : Port)
  | getInfo (p : Port)
  | portReset (p : Port)
  /-- DEVICE_RESET (R193 and each chapter's reset rule): RST_N goes low, or power-on. -/
  | deviceReset
  /-- RESET_RELEASE (R1, R130, R178): RST_N goes high; the straps RATE1, RATE0 are sampled and the first level
  seen on each capture pin becomes its seen level. -/
  | resetRelease (rate1 rate0 : Bool) (cap0 cap1 cap2 cap3 : Level)
  /-- CHARACTER_RECEIVED (R178, R180, R181): the start or the end of character `b` on the receive line;
what its start does is the same for every `b`. -/
  | characterReceived (p : Port) (b : Byte) (moment : CharMoment)
  /-- RECEIVE_LINE_AT_MARK (R180, R184): the receive line is seen at mark. -/
  | receiveLineAtMark (p : Port)
  deriving DecidableEq, Repr

end Sys2Proof
end

