-- ==== Sys2Proof/WellFormed.lean ====
section
/-! DEFINITION. Which commands are well formed.

Port, line, input and character operands are bounded by their types.  One check is left: LENGTH_FAULT is the
taking of a LEN byte that is 0 or above 200 (R180), so its byte must be such a one.
-/

namespace Sys2Proof

/-- R180: a LEN byte of 0 or above 200. -/
def badLength (b : Byte) : Bool := b.toNat == 0 || 200 < b.toNat

/-- The command is one the part can be given. -/
def Instr.wellFormed : Instr → Bool
  | .runTimeAdvance | .adjustedAdvance | .secondBoundary | .calendarEnd | .leaseExpiry => true
  | .readTime _ | .claimAuthority _ | .releaseAuthority _ => true
  | .setCivil _ | .stepCivil _ | .cancelStep _ | .slewCivil _ | .invalidateCivil _ => true
  | .createEntry _ | .queryEntry _ | .listEntries _ | .cancelEntry _ | .suspendEntry _ | .resumeEntry _ => true
  | .monoFiring | .civilFiring => true
  | .claimLine _ | .releaseLine _ | .driveLine _ | .pulseEnd _ => true
  | .claimInput _ | .releaseInput _ | .captureEdge _ _ | .holdoffExpiry _ => true
  | .transmitStart _ | .noteTransmissionEnd _ | .responseTransmissionEnd _ => true
  | .ackFrame _ | .ackTimeout _ | .backoffExpiry _ | .setPortConfig _ => true
  | .frameComplete _ _ => true
  | .lengthFault _ b => badLength b
  | .gapExpiry _ | .breakSeen _ | .unknownRequest _ => true
  | .getPortStatus _ | .clearFaults _ | .getInfo _ | .portReset _ => true
  | .deviceReset | .resetRelease _ _ _ _ _ _ => true
  | .characterReceived _ _ _ | .receiveLineAtMark _ => true

end Sys2Proof
end

