-- ==== Sys2Proof/Decode.lean ====
section
/-! DEFINITION. The T4 has no instruction words: no row of the table of operations and events gives bits, so no
word spells a command.
-/

namespace Sys2Proof

/-- The command that a word of `nbits` bits spells: none, since the table gives no row any bits. -/
def decodeTableWord (_nbits _w : Nat) : Option Instr := none

end Sys2Proof
end

