-- ==== Sys2Proof/Machine/State.lean ====
section
/-! DEFINITION. The state of the Pazelis T4 as plain data, block by block, the machine right after a device
reset, and the reasons a step can stop.
-/

namespace Sys2Proof.Machine

/-! ### Timebase Unit and Authority Unit (01, 02) -/

/-- A civil record (Table 0-2).  The weekday is derived from the date and has no storage of its own (R9). -/
structure Civil where
  year   : Nat
  month  : Nat
  day    : Nat
  hour   : Nat
  minute : Nat
  second : Nat
  micro  : Nat
  deriving DecidableEq, Repr

/-- A running slew (R33, R34). -/
structure Slew where
  /-- remaining offset, signed µs -/
  remaining : Int
  /-- ppm, 1 to 500 -/
  rate      : Nat
  /-- the slew interval K, floor(1,000,000 / rate) -/
  interval  : Nat
  /-- run-time advances counted toward the next adjustment -/
  count     : Nat
  requester : Port
  deriving DecidableEq, Repr

/-- The pending step; its mode is always AT_SECOND (R15, R30).  `reached` is the boundary instant that the last
advance reached, while its second boundary event is still to be taken (R12; notes/assumptions/11). -/
structure PendingStep where
  offset    : Int
  requester : Port
  reached   : Option Civil
  deriving DecidableEq, Repr

/-- The holder of the authority and its lease expiry instant (R18). -/
structure Lease where
  holder : Port
  expiry : Nat
  deriving DecidableEq, Repr

/-! ### Schedule Table and Due Lists (03, 04, 05) -/

/-- An entry handle: id and generation (3.1). -/
structure Handle where
  id  : EntryId
  gen : Byte
  deriving DecidableEq, Repr

/-- The four allocated states (Table 3-2). -/
inductive EntryState where
  | dormant
  | waiting
  | armed
  | suspended
  deriving DecidableEq, Repr

/-- Line actions (Table 6-2); only PULSE holds a width (R51). -/
inductive Action where
  | toActive
  | toIdle
  | toggle
  | pulse (width : Nat)
  deriving DecidableEq, Repr

/-- An entry's line action: the line and what is done to it. -/
structure LineAction where
  line   : Line
  action : Action
  deriving DecidableEq, Repr

/-- Notify modes (R74). -/
inductive NotifyMode where
  | always
  | faultsOnly
  | never
  deriving DecidableEq, Repr

/-- Skip policies of PATTERN entries (R102). -/
inductive SkipPolicy where
  | catchUp
  | skip
  deriving DecidableEq, Repr

/-- A pattern (Table 5-1): the microsecond is required, every other field optional. -/
structure Pattern where
  month   : Option Nat
  day     : Option Nat
  weekday : Option Nat
  hour    : Option Nat
  minute  : Option Nat
  second  : Option Nat
  micro   : Nat
  deriving DecidableEq, Repr

/-- The kind of an entry with the timing fields that kind has (Table 3-1). -/
inductive Timing where
  | once (due : Nat)
  | periodic (due firstDue period skips : Nat)
  | pattern (pat : Pattern) (next : Option Civil) (policy : SkipPolicy) (skips : Nat)
  | afterCapture (input : Input) (delay : Nat) (rearm : Bool) (due : Option Nat)
  deriving DecidableEq, Repr

/-- An allocated entry's record (Table 3-1), less the id and generation, which its slot has. -/
structure Entry where
  owner     : Port
  state     : EntryState
  timing    : Timing
  /-- 0 to 65535; 0 is unlimited -/
  remaining : Nat
  action    : Option LineAction
  notify    : NotifyMode
  tag       : Word32
  deriving DecidableEq, Repr

/-- A slot: its generation, and its entry unless FREE (R42). -/
structure Slot where
  gen   : Byte
  entry : Option Entry
  deriving DecidableEq, Repr

/-- A position of the MONO due list (Table 4-1). -/
structure MonoPos where
  id   : EntryId
  due  : Nat
  late : Bool
  deriving DecidableEq, Repr

/-- A position of the CIVIL due list (Table 5-3). -/
structure CivilPos where
  id   : EntryId
  next : Civil
  deriving DecidableEq, Repr

/-- For each due list: the last advance reached the head's instant, and the list has taken no firing since (R69, R98;
notes/assumptions/29). -/
structure Reached where
  mono  : Bool
  civil : Bool
  deriving DecidableEq, Repr

/-! ### Line Control and Capture Unit (06, 07) -/

/-- The source of an action on a line: a firing's entry handle, or DIRECT. -/
inductive Source where
  | entry (h : Handle)
  | direct
  deriving DecidableEq, Repr

/-- A pending pulse end and its source (R117). -/
structure PulseEnd where
  endAt  : Nat
  source : Source
  deriving DecidableEq, Repr

/-- What a line holds only while it is owned. -/
structure LineClaim where
  owner : Port
  idle  : Level
  deriving DecidableEq, Repr

/-- State of one trigger line (Table 6-1). -/
structure LineState where
  claim : Option LineClaim
  level : Level
  pulse : Option PulseEnd
  deriving DecidableEq, Repr

/-- Edge modes of an input. -/
inductive EdgeMode where
  | rising
  | falling
  | both
  deriving DecidableEq, Repr

/-- The direction of an edge. -/
inductive Polarity where
  | rising
  | falling
  deriving DecidableEq, Repr

/-- What an input holds only while it is owned; its state is HOLDOFF exactly while a holdoff end is held. -/
structure InputClaim where
  owner      : Port
  mode       : EdgeMode
  holdoff    : Nat
  holdoffEnd : Option Nat
  suppressed : Nat
  deriving DecidableEq, Repr

/-- State of one capture input (Table 7-1).  The seen level is held while RST_N is high. -/
structure InputState where
  claim : Option InputClaim
  seen  : Option Level
  deriving DecidableEq, Repr

/-! ### Notification records and queues (08) -/

/-- The intended instant of a firing: a run time, or a civil match. -/
inductive Intended where
  | run (t : Nat)
  | civil (c : Civil)
  deriving DecidableEq, Repr

/-- The outcome of a firing (R72). -/
inductive FiringOutcome where
  | ok
  | late
  | lineNotOwned
  deriving DecidableEq, Repr

/-- Why an entry ended without a FINAL firing (R156). -/
inductive EndReason where
  | captureLost
  | calendarEnd
  deriving DecidableEq, Repr

/-- Reasons of an AUTHORITY record (R40). -/
inductive AuthorityReason where
  | expired
  | free
  deriving DecidableEq, Repr

/-- Reasons of a TIME_CHANGE record (Table 2-5). -/
inductive ChangeReason where
  | set
  | stepped
  | stepCancelled
  | slewDone
  | slewCancelled
  | invalidated
  deriving DecidableEq, Repr

/-- Causes of a TIME_CHANGE record (Table 2-5). -/
inductive ChangeCause where
  | request
  | calendarEnd
  deriving DecidableEq, Repr

/-- FIRED (R73). -/
structure FiredRecord where
  handle     : Handle
  tag        : Word32
  intended   : Intended
  fireTime   : Nat
  civilStamp : Option Civil
  outcome    : FiringOutcome
  skipped    : Nat
  final      : Bool
  overtaken  : Option Source
  deriving DecidableEq, Repr

/-- ENTRY_ENDED (R156). -/
structure EndedRecord where
  handle  : Handle
  tag     : Word32
  reason  : EndReason
  runTime : Nat
  deriving DecidableEq, Repr

/-- CAPTURE (R136). -/
structure CaptureRecord where
  input      : Input
  polarity   : Polarity
  runStamp   : Nat
  civilStamp : Option Civil
  suppressed : Nat
  armed      : Nat
  deriving DecidableEq, Repr

/-- AUTHORITY (R40). -/
structure AuthorityRecord where
  reason  : AuthorityReason
  runTime : Nat
  deriving DecidableEq, Repr

/-- TIME_CHANGE (R38, R157). -/
structure ChangeRecord where
  reason     : ChangeReason
  cause      : ChangeCause
  requester  : Option Port
  offset     : Option Int
  runTime    : Nat
  civilAfter : Option Civil
  deriving DecidableEq, Repr

/-- PEER_RESET (R158). -/
structure PeerResetRecord where
  port    : Port
  entries : Nat
  lines   : Nat
  inputs  : Nat
  runTime : Nat
  deriving DecidableEq, Repr

/-- A notification record, less the sequence number and lost-before its queue gives it (R155). -/
inductive Record where
  | fired (r : FiredRecord)
  | entryEnded (r : EndedRecord)
  | capture (r : CaptureRecord)
  | authority (r : AuthorityRecord)
  | timeChange (r : ChangeRecord)
  | peerReset (r : PeerResetRecord)
  deriving DecidableEq, Repr

/-- A record as its queue holds it (R147). -/
structure Queued where
  seq        : Word16
  lostBefore : Nat
  record     : Record
  deriving DecidableEq, Repr

/-- One port's notification queue (Table 8-1); the first record is the head. -/
structure NoteQueue where
  records      : List Queued
  nextSeq      : Word16
  pendingLost  : Nat
  epoch        : Byte
  timeChangeOn : Bool
  peerResetOn  : Bool
  lostTotal    : Word32
  deriving DecidableEq, Repr

/-! ### Delivery Engine (09) -/

/-- Delivery states (Table 9-2). -/
inductive DeliveryState where
  | idle
  | awaitAck
  | backoff
  | stalled
  deriving DecidableEq, Repr

/-- The engine's frame at the arbiter (note after Table 9-1). -/
inductive FrameAt where
  | absent
  | queued
  | onWire
  deriving DecidableEq, Repr

/-- Stall actions (R167). -/
inductive StallAction where
  | keep
  | release
  deriving DecidableEq, Repr

/-- Delivery configuration (Table 9-3). -/
structure DeliveryConfig where
  ackTimeout : Nat
  retryLimit : Nat
  backoffCap : Nat
  stall      : StallAction
  deriving DecidableEq, Repr

/-- State of one Delivery Engine (Table 9-1).  `stalledAt` is the model's own: the run time of the ack timeout that made the
engine STALLED, by which a stale ACK of the same instant is told (R175, notes/assumptions/28). -/
structure Engine where
  state           : DeliveryState
  stalledAt       : Option Nat
  attempts        : Nat
  frame           : FrameAt
  ackEnd          : Option Nat
  backoffEnd      : Option Nat
  config          : DeliveryConfig
  delivered       : Word32
  retransmissions : Word32
  staleAcks       : Word32
  deriving DecidableEq, Repr

/-! ### Port Link (10) -/

/-- Receiver states (Table 10-4); in LENGTH and BODY, `gap` is the instant at which the last character's stop bit
ended (R181), `len` the LEN byte and `chars` the characters taken after it, oldest first. -/
inductive Receiver where
  | waitMark
  | hunt
  | length (gap : Nat)
  | body (len : Byte) (chars : List Byte) (gap : Nat)
  deriving DecidableEq, Repr

/-- Kinds of the frame-fault record (R183). -/
inductive FaultKind where
  | noFault
  | truncated
  | badLength
  | badCrc
  | badType
  | fifoFull
  deriving DecidableEq, Repr

/-- The frame-fault record; its MULTIPLE mark is `2 ≤ count` (R183). -/
structure FaultRecord where
  kind  : FaultKind
  count : Nat
  deriving DecidableEq, Repr

/-- A pending response: its payload, and whether a port reset takes effect at its end (R190). -/
structure Response where
  payload : List Byte
  resets  : Bool
  deriving DecidableEq, Repr

/-- The frame on the transmit line, with its bytes: a RESPONSE, which may take a port reset at its end, or a NOTE,
which is the engine's frame while `live` (R165, R173, R192).  After a break a frame of either type is `cut`: it ends
with the character then being transmitted (R173; notes/assumptions/18). -/
inductive TxFrame where
  | response (bytes : List Byte) (resets : Bool)
  | note (bytes : List Byte) (live : Bool)
  | cut (bytes : List Byte) (isNote : Bool)
  deriving DecidableEq, Repr

/-- State of one Port Link. -/
structure Link where
  rx               : Receiver
  /-- since when the receive line has been at space, from a change that a break is counted from; absent at mark and in
  WAIT_MARK (R184; notes/assumptions/14) -/
  spaceSince       : Option Nat
  /-- the instant of the start bit of the character under way on the receive line (R181) -/
  arriving         : Option Nat
  /-- payloads of the REQUEST frames held, oldest first (R185) -/
  fifo             : List (List Byte)
  /-- payloads of the ACK frames handed to the engine and not yet taken (notes/assumptions/15) -/
  acks             : List (List Byte)
  responses        : List Response
  tx               : Option TxFrame
  faults           : FaultRecord
  framesAccepted   : Word32
  requestsExecuted : Word32
  deriving DecidableEq, Repr

/-- What the T4 holds for one port. -/
structure PortState where
  queue  : NoteQueue
  engine : Engine
  link   : Link
  deriving DecidableEq, Repr

/-! ### The machine -/

/-- The whole T4, and the queue of the commands it has yet to take. -/
structure State where
  rstN         : Bool
  rate1        : Bool
  rate0        : Bool
  runTime      : Nat
  refclkCycles : Nat
  civil        : Option Civil
  slew         : Option Slew
  step         : Option PendingStep
  lease        : Option Lease
  waiters      : Vector Bool 4
  slots        : Vector Slot 64
  held         : Vector Nat 4
  poolUse      : Nat
  mono         : List MonoPos
  civils       : List CivilPos
  reached      : Reached
  lines        : Vector LineState 8
  inputs       : Vector InputState 4
  ports        : Vector PortState 4
  freeCount    : Nat
  pending      : List Instr
  deriving DecidableEq, Repr

/-- No meaning faults: the manual names no event that stops the part (notes/assumptions/26). -/
inductive Fault where
  deriving DecidableEq, Repr

/-- Reasons a command has no meaning. -/
inductive Refusal where
  /-- Raised by an arm of `exec` whose command has no meaning yet; no arm does so now.  Safe: nothing is said of
  the command. -/
  | notModelled (mnemonic : String)
  deriving DecidableEq, Repr

/-- Reset values of Table 9-3 (R171, R174). -/
def DeliveryConfig.reset : DeliveryConfig :=
  { ackTimeout := 10, retryLimit := 7, backoffCap := 4, stall := .keep }

/-- Device-reset column of Table 9-1 (R162). -/
def Engine.reset : Engine :=
  { state := .idle, stalledAt := none, attempts := 0, frame := .absent, ackEnd := none, backoffEnd := none,
    config := DeliveryConfig.reset, delivered := 0, retransmissions := 0, staleAcks := 0 }

/-- Device-reset column of Table 8-1 (R145). -/
def NoteQueue.reset : NoteQueue :=
  { records := [], nextSeq := 0, pendingLost := 0, epoch := 0, timeChangeOn := true, peerResetOn := true,
    lostTotal := 0 }

/-- The cleared frame-fault record (R183). -/
def FaultRecord.clear : FaultRecord := { kind := .noFault, count := 0 }

/-- Device-reset state of a Port Link (R193). -/
def Link.reset : Link :=
  { rx := .waitMark, spaceSince := none, arriving := none, fifo := [], acks := [], responses := [], tx := none,
    faults := FaultRecord.clear, framesAccepted := 0, requestsExecuted := 0 }

/-- Device-reset state of what is held for one port. -/
def PortState.reset : PortState :=
  { queue := NoteQueue.reset, engine := Engine.reset, link := Link.reset }

/-- Device-reset column of Table 6-1 (R128). -/
def LineState.reset : LineState := { claim := none, level := .low, pulse := none }

/-- Device-reset column of Table 7-1 (R144). -/
def InputState.reset : InputState := { claim := none, seen := none }

/-- A FREE slot with generation 0 (R42). -/
def Slot.reset : Slot := { gen := 0, entry := none }

/-- The machine right after a device reset, RST_N still low (R1, R17, R18, R42, R66, R96, R128, R144, R145, R162,
R193; notes/assumptions/6 and 7). -/
def State.reset : State :=
  { rstN := false, rate1 := false, rate0 := false, runTime := 0, refclkCycles := 0,
    civil := none, slew := none, step := none, lease := none,
    waiters := Vector.replicate 4 false, slots := Vector.replicate 64 Slot.reset,
    held := Vector.replicate 4 0, poolUse := 0, mono := [], civils := [],
    reached := { mono := false, civil := false },
    lines := Vector.replicate 8 LineState.reset, inputs := Vector.replicate 4 InputState.reset,
    ports := Vector.replicate 4 PortState.reset, freeCount := 0, pending := [] }

end Sys2Proof.Machine
end

