-- ==== Sys2Proof/Machine/Calendar.lean ====
section
/-! DEFINITION. The Gregorian calendar of the T4: leap years, months, civil counts, weekdays, the carry of an
advance (R6 to R10), and the 64-bit sum that ends a duration (R3).
-/

namespace Sys2Proof.Machine

/-- R7: divisible by 4, except a century year not divisible by 400. -/
def isLeap (y : Nat) : Bool := y % 4 == 0 && (y % 100 != 0 || y % 400 == 0)

/-- R7: days of a year. -/
def yearLength (y : Nat) : Nat := if isLeap y then 366 else 365

/-- Table 1-3: days of a month; 0 for a number that is no month. -/
def monthLength (y m : Nat) : Nat :=
  if m = 2 then (if isLeap y then 29 else 28)
  else if m = 4 ∨ m = 6 ∨ m = 9 ∨ m = 11 then 30
  else if 1 ≤ m ∧ m ≤ 12 then 31
  else 0

/-- Days of the years 2000 … 2000 + n − 1. -/
def daysBeforeYear : Nat → Nat
  | 0 => 0
  | n + 1 => daysBeforeYear n + yearLength (2000 + n)

/-- Days of the months 1 … n of year `y`. -/
def daysOfMonths (y : Nat) : Nat → Nat
  | 0 => 0
  | n + 1 => daysOfMonths y n + monthLength y (n + 1)

/-- R9: whole days from 2000-01-01 to the record's date. -/
def Civil.dayNumber (c : Civil) : Nat :=
  daysBeforeYear (c.year - 2000) + daysOfMonths c.year (c.month - 1) + (c.day - 1)

/-- R9: 0 = Monday to 6 = Sunday. -/
def weekdayOfDay (dayNumber : Nat) : Nat := (5 + dayNumber) % 7

/-- R9: the weekday derived from the date. -/
def Civil.weekday (c : Civil) : Nat := weekdayOfDay c.dayNumber

/-- R8: microseconds of one day. -/
def dayMicros : Nat := 86400000000

/-- Microseconds from midnight to the record's time of day. -/
def Civil.timeOfDay (c : Civil) : Nat := ((c.hour * 60 + c.minute) * 60 + c.second) * 1000000 + c.micro

/-- R8: the civil count, microseconds from 2000-01-01 00:00:00.000000. -/
def Civil.count (c : Civil) : Nat := c.dayNumber * dayMicros + c.timeOfDay

/-- R8: the civil count of the calendar end, 2200-01-01 00:00:00.000000. -/
def calendarEndCount : Nat := 6311433600000000

/-- R6: a well-formed civil record. -/
def Civil.wellFormed (c : Civil) : Bool :=
  2000 ≤ c.year && c.year ≤ 2199 && 1 ≤ c.month && c.month ≤ 12 &&
  1 ≤ c.day && c.day ≤ monthLength c.year c.month &&
  c.hour ≤ 23 && c.minute ≤ 59 && c.second ≤ 59 && c.micro ≤ 999999

/-- The year in which the `d`-th day from the start of year `y` falls, and the day's place in it. -/
def yearOfDay : Nat → Nat → Nat → Nat × Nat
  | 0, y, d => (y, d)
  | fuel + 1, y, d => if d < yearLength y then (y, d) else yearOfDay fuel (y + 1) (d - yearLength y)

/-- The month of year `y` in which the `d`-th day from the start of month `m` falls, and its place in it. -/
def monthOfDay (y : Nat) : Nat → Nat → Nat → Nat × Nat
  | 0, m, d => (m, d)
  | fuel + 1, m, d => if d < monthLength y m then (m, d) else monthOfDay y fuel (m + 1) (d - monthLength y m)

/-- R8: the civil record of a civil count (below the calendar end). -/
def Civil.ofCount (n : Nat) : Civil :=
  let year := yearOfDay 200 2000 (n / dayMicros)
  let month := monthOfDay year.1 12 1 year.2
  let t := n % dayMicros
  { year := year.1, month := month.1, day := month.2 + 1,
    hour := t / 3600000000, minute := t / 60000000 % 60, second := t / 1000000 % 60, micro := t % 1000000 }

/-- R10: a date carried when its day is past the end of its month, and its month past 12. -/
def Civil.carryDate (c : Civil) : Civil :=
  if c.day ≤ monthLength c.year c.month then c
  else if c.month < 12 then { c with day := 1, month := c.month + 1 }
  else { c with day := 1, month := 1, year := c.year + 1 }

/-- R10: one second past the record, carried through minute, hour, day, month and year. -/
def Civil.nextSecond (c : Civil) : Civil :=
  if c.second + 1 < 60 then { c with second := c.second + 1 }
  else if c.minute + 1 < 60 then { c with second := 0, minute := c.minute + 1 }
  else if c.hour + 1 < 24 then { c with second := 0, minute := 0, hour := c.hour + 1 }
  else Civil.carryDate { c with second := 0, minute := 0, hour := 0, day := c.day + 1 }

/-- R12: the advance by `amount` µs reaches a whole second. -/
def Civil.crossesSecond (c : Civil) (amount : Nat) : Bool := 1000000 ≤ c.micro + amount

/-- R10: the record `amount` µs later, for an amount below one second. -/
def Civil.advance (c : Civil) (amount : Nat) : Civil :=
  if c.crossesSecond amount then
    Civil.nextSecond { c with micro := c.micro + amount - 1000000 }
  else { c with micro := c.micro + amount }

/-- The whole second at or before the record: the boundary instant of an advance that crossed one (R12). -/
def Civil.wholeSecond (c : Civil) : Civil := { c with micro := 0 }

/-- R28: the first whole second later than the record. -/
def Civil.targetBoundary (c : Civil) : Civil := Civil.nextSecond c.wholeSecond

/-- R8: the civil count `offset` µs from the record's. -/
def Civil.shifted (c : Civil) (offset : Int) : Int := (c.count : Int) + offset

/-- R8: a count that lies in the civil range. -/
def inCivilRange (n : Int) : Bool := 0 ≤ n && n < (calendarEndCount : Int)

/-- R3: the end instant of a duration, formed as a 64-bit sum; a sum that does not fit is a free value
(notes/assumptions/4). -/
def endInstant (start length : Nat) : Nat :=
  if start + length < Config.runTimeLimit then start + length
  else (Config.durationPastEnd start length).toNat

end Sys2Proof.Machine
end

