-- ==== Sys2Proof/Machine/Flags.lean ====
section
/-! DEFINITION. Every flag and count computation: saturating counts, the frame-fault record, the outcome of a firing
and whether its record is offered, status codes, and the flag bytes of the layouts.
-/

namespace Sys2Proof.Machine

/-- A count that stops at `limit` (Conventions: saturating). -/
def saturate (limit n : Nat) : Nat := min limit n

/-- R183: a fault taken into the frame-fault record. -/
def FaultRecord.note (f : FaultRecord) (k : FaultKind) : FaultRecord :=
  { kind := if f.count = 0 then k else f.kind, count := saturate 255 (f.count + 1) }

/-- R183: the MULTIPLE mark. -/
def FaultRecord.multiple (f : FaultRecord) : Bool := 2 ≤ f.count

/-- R180: a LEN byte of 0 or above 200. -/
def lengthOutOfRange (b : Byte) : Bool := b.toNat == 0 || 200 < b.toNat

/-- R72: the overall outcome of a firing. -/
def firingOutcome (lineOwned late : Bool) : FiringOutcome :=
  if !lineOwned then .lineNotOwned else if late then .late else .ok

/-- R74: whether the FIRED record is offered. -/
def firedOffered (mode : NotifyMode) (outcome : FiringOutcome) (final : Bool) : Bool :=
  final || match mode, outcome with
    | .always, _ => true
    | .faultsOnly, .ok => false
    | .faultsOnly, .late => true
    | .faultsOnly, .lineNotOwned => true
    | .never, _ => false

/-- R76: the remaining count after a firing. -/
def consumeRemaining (remaining : Nat) : Nat := remaining - 1

/-- R76: the firing brings the remaining count to 0 (a count of 0 before it is unlimited). -/
def lastFiring (remaining : Nat) : Bool := remaining == 1

/-- R112: the level opposite to a level. -/
def flipLevel : Level → Level
  | .low => .high
  | .high => .low

/-- Table 7-2: an edge matches the edge mode. -/
def EdgeMode.accepts : EdgeMode → Polarity → Bool
  | .rising, .rising => true
  | .rising, .falling => false
  | .falling, .rising => false
  | .falling, .falling => true
  | .both, _ => true

/-- R130: the edge that a change of the seen level to `l` is. -/
def polarityTo : Level → Polarity
  | .high => .rising
  | .low => .falling

/-- R167: the exponent m of a backoff. -/
def backoffExponent (attempts cap : Nat) : Nat := min (attempts - 1) cap

/-- Status codes (Table 0-6). -/
inductive Status where
  | ok
  | accepted
  | malformed
  | unknownRequest
  | range
  | notOwner
  | noEntry
  | wrongState
  | quotaExceeded
  | held
  | notHolder
  | civilUnset
  | stepPending
  | neverMatches
  | lineNotOwned
  | inputNotOwned
  deriving DecidableEq, Repr

/-- Table 10-6. -/
def Status.code : Status → Byte
  | .ok => 0x00
  | .accepted => 0x01
  | .malformed => 0x02
  | .unknownRequest => 0x03
  | .range => 0x04
  | .notOwner => 0x05
  | .noEntry => 0x06
  | .wrongState => 0x07
  | .quotaExceeded => 0x08
  | .held => 0x09
  | .notHolder => 0x0A
  | .civilUnset => 0x0B
  | .stepPending => 0x0C
  | .neverMatches => 0x0D
  | .lineNotOwned => 0x0E
  | .inputNotOwned => 0x0F

/-- R194: a flags byte with bit i set as the i-th Boolean says. -/
def flagByte (bits : List Bool) : Byte :=
  BitVec.ofNat 8 (bits.foldr (fun b n => 2 * n + b.toNat) 0)

end Sys2Proof.Machine
end

