-- ==== Sys2Proof/Machine/Pattern.lean ====
section
/-! DEFINITION. Patterns of PATTERN entries: what they match (R92), which are structurally impossible (R93), the
two searches (R94) and the count of matches a forward step passes over (R102).
-/

namespace Sys2Proof.Machine

/-- An optional pattern field agrees with a civil field; an absent field places no condition (R92). -/
def agrees (field : Option Nat) (value : Nat) : Bool :=
  match field with
  | none => true
  | some v => v == value

/-- R92: the pattern's date fields agree with a date. -/
def Pattern.dateOk (p : Pattern) (y m d : Nat) : Bool :=
  agrees p.month m && agrees p.day d &&
  agrees p.weekday (Civil.weekday { year := y, month := m, day := d, hour := 0, minute := 0, second := 0, micro := 0 })

/-- R92: the pattern matches a civil instant. -/
def Pattern.matchesAt (p : Pattern) (c : Civil) : Bool :=
  p.dateOk c.year c.month c.day &&
  agrees p.hour c.hour && agrees p.minute c.minute && agrees p.second c.second && p.micro == c.micro

/-- R54: every field present lies in its range. -/
def Pattern.inRange (p : Pattern) : Bool :=
  p.month.all (fun v => 1 ≤ v && v ≤ 12) && p.day.all (fun v => 1 ≤ v && v ≤ 31) &&
  p.weekday.all (fun v => v ≤ 6) && p.hour.all (fun v => v ≤ 23) &&
  p.minute.all (fun v => v ≤ 59) && p.second.all (fun v => v ≤ 59) && p.micro ≤ 999999

/-- R93: the combinations of day and month that no year contains. -/
def Pattern.impossible (p : Pattern) : Bool :=
  match p.month, p.day with
  | some m, some d =>
    (m == 2 && (d == 30 || d == 31)) || ((m == 4 || m == 6 || m == 9 || m == 11) && d == 31)
  | _, _ => false

/-- The first answer of `f` at `start`, `start + 1`, …, within `fuel` tries. -/
def firstSome {α : Type} (f : Nat → Option α) : Nat → Nat → Option α
  | 0, _ => none
  | fuel + 1, start =>
    match f start with
    | some a => some a
    | none => firstSome f fuel (start + 1)

/-- The first number of `start` … `stop − 1` for which `ok` holds. -/
def firstWhere (ok : Nat → Bool) (start stop : Nat) : Option Nat :=
  firstSome (fun n => if ok n then some n else none) (stop - start) start

/-- The first second at or after second `s`, microsecond `us`, of one minute. -/
def Pattern.secondFrom (p : Pattern) (s us : Nat) : Option Nat :=
  firstWhere (agrees p.second) (if us ≤ p.micro then s else s + 1) 60

/-- The first minute and second at or after the given instant of one hour. -/
def Pattern.minuteFrom (p : Pattern) (m s us : Nat) : Option (Nat × Nat) :=
  firstSome
    (fun m' =>
      if agrees p.minute m' then
        (if m' = m then p.secondFrom s us else p.secondFrom 0 0).map (fun s' => (m', s'))
      else none)
    (60 - m) m

/-- The first hour, minute and second at or after the given instant of one day. -/
def Pattern.hourFrom (p : Pattern) (h m s us : Nat) : Option (Nat × Nat × Nat) :=
  firstSome
    (fun h' =>
      if agrees p.hour h' then
        (if h' = h then p.minuteFrom m s us else p.minuteFrom 0 0 0).map (fun r => (h', r))
      else none)
    (24 - h) h

/-- The first day of month `m` of year `y`, from day `d`, whose date agrees. -/
def Pattern.dayFrom (p : Pattern) (y m d : Nat) : Option Nat :=
  if agrees p.month m then firstWhere (p.dateOk y m) d (monthLength y m + 1) else none

/-- The first month and day of year `y`, from month `m`, day `d`, whose date agrees. -/
def Pattern.monthFrom (p : Pattern) (y m d : Nat) : Option (Nat × Nat) :=
  firstSome (fun m' => (if m' = m then p.dayFrom y m' d else p.dayFrom y m' 1).map (fun d' => (m', d')))
    (13 - m) m

/-- The first date from the given one, up to the end of 2199, whose date agrees. -/
def Pattern.dateFrom (p : Pattern) (y m d : Nat) : Option (Nat × Nat × Nat) :=
  firstSome (fun y' => (if y' = y then p.monthFrom y' m d else p.monthFrom y' 1 1).map (fun r => (y', r)))
    (2200 - y) y

/-- A date and a time of day of the pattern, at the pattern's microsecond. -/
def Pattern.instant (p : Pattern) (date : Nat × Nat × Nat) (time : Nat × Nat × Nat) : Civil :=
  { year := date.1, month := date.2.1, day := date.2.2,
    hour := time.1, minute := time.2.1, second := time.2.2, micro := p.micro }

/-- The first match on the instant's own date, at or after it. -/
def Pattern.sameDay (p : Pattern) (x : Civil) : Option Civil :=
  if p.dateOk x.year x.month x.day then
    (p.hourFrom x.hour x.minute x.second x.micro).map (p.instant (x.year, x.month, x.day))
  else none

/-- The first match on a later date than the instant's. -/
def Pattern.laterDay (p : Pattern) (x : Civil) : Option Civil :=
  match p.dateFrom x.year x.month (x.day + 1), p.hourFrom 0 0 0 0 with
  | some date, some time => some (p.instant date time)
  | _, _ => none

/-- R94: the search at or after an instant, no further than 2199-12-31 23:59:59.999999. -/
def Pattern.atOrAfter (p : Pattern) (x : Civil) : Option Civil :=
  match p.sameDay x with
  | some c => some c
  | none => p.laterDay x

/-- R94: the search strictly after an instant: at or after the microsecond that follows it. -/
def Pattern.strictlyAfter (p : Pattern) (x : Civil) : Option Civil :=
  let y := x.advance 1
  if y.year ≤ 2199 then p.atOrAfter y else none

/-- Matches after the match `m` and before `new`, no more than `fuel` of them counted. -/
def Pattern.passedAfter (p : Pattern) (new : Civil) : Nat → Civil → Nat
  | 0, _ => 0
  | fuel + 1, m =>
    match p.strictlyAfter m with
    | some m' => if m'.count < new.count then p.passedAfter new fuel m' + 1 else 0
    | none => 0

/-- R102: the matches at or after the next match `m` and earlier than `new`, `m` itself among them, saturating at
255. -/
def Pattern.passedMatches (p : Pattern) (m new : Civil) : Nat := p.passedAfter new 254 m + 1

end Sys2Proof.Machine
end

