-- ==== Sys2Proof/Machine/Operands.lean ====
section
/-! DEFINITION. Operand forms: the little-endian fields of an argument field and the arguments of every request that
carries any (R194, Tables 10-5 to 10-10).
-/

namespace Sys2Proof.Machine

/-- An unsigned field sent least significant byte first (R194). -/
def fromBytes : List Byte → Nat
  | [] => 0
  | b :: bs => b.toNat + 256 * fromBytes bs

/-- The unsigned field of `n` bytes at position `at0` of an argument field. -/
def fieldAt (args : List Byte) (at0 n : Nat) : Nat := fromBytes ((args.drop at0).take n)

/-- A two's-complement value of `n` bytes (R194). -/
def toSigned (n v : Nat) : Int := if v < 2 ^ (8 * n - 1) then (v : Int) else (v : Int) - 2 ^ (8 * n)

/-- The signed field of `n` bytes at position `at0`. -/
def signedAt (args : List Byte) (at0 n : Nat) : Int := toSigned n (fieldAt args at0 n)

/-- The byte at a position, 0 past the end (no caller reads past the end). -/
def byteAt (args : List Byte) (i : Nat) : Byte := args.getD i 0

/-- Table 10-5: LOW 0, HIGH 1. -/
def decodeLevel (b : Byte) : Option Level :=
  if b = 0 then some .low else if b = 1 then some .high else none

/-- Table 10-5: no 0, yes 1. -/
def decodeYesNo (b : Byte) : Option Bool :=
  if b = 0 then some false else if b = 1 then some true else none

/-- Table 10-5: CATCH_UP 0, SKIP 1. -/
def decodePolicy (b : Byte) : Option SkipPolicy :=
  if b = 0 then some .catchUp else if b = 1 then some .skip else none

/-- Table 10-5: ALWAYS 0, FAULTS_ONLY 1, NEVER 2. -/
def decodeNotify (b : Byte) : Option NotifyMode :=
  if b = 0 then some .always else if b = 1 then some .faultsOnly else if b = 2 then some .never else none

/-- Table 10-5: RISING 0, FALLING 1, BOTH 2. -/
def decodeEdgeMode (b : Byte) : Option EdgeMode :=
  if b = 0 then some .rising else if b = 1 then some .falling else if b = 2 then some .both else none

/-- Table 10-5: KEEP 0, RELEASE 1. -/
def decodeStall (b : Byte) : Option StallAction :=
  if b = 0 then some .keep else if b = 1 then some .release else none

/-- A line number, 0 to 7. -/
def decodeLine (b : Byte) : Option Line := if h : b.toNat < 8 then some ⟨b.toNat, h⟩ else none

/-- An input number, 0 to 3. -/
def decodeInput (b : Byte) : Option Input := if h : b.toNat < 4 then some ⟨b.toNat, h⟩ else none

/-- An entry id, 0 to 63. -/
def decodeId (b : Byte) : Option EntryId := if h : b.toNat < 64 then some ⟨b.toNat, h⟩ else none

/-- Table 10-5: TO_ACTIVE 0, TO_IDLE 1, TOGGLE 2, PULSE 3; the width is checked and held for PULSE alone (R51, R113). -/
def decodeAction (b : Byte) (width : Nat) : Option Action :=
  if b = 0 then some .toActive
  else if b = 1 then some .toIdle
  else if b = 2 then some .toggle
  else if b = 3 then (if 1 ≤ width ∧ width ≤ 1000000 then some (.pulse width) else none)
  else none

/-- The line, action and width of Table 10-10 or of DRIVE_LINE (6 bytes). -/
def decodeLineAction (args : List Byte) (at0 : Nat) : Option LineAction :=
  match decodeLine (byteAt args at0), decodeAction (byteAt args (at0 + 1)) (fieldAt args (at0 + 2) 4) with
  | some l, some a => some { line := l, action := a }
  | _, _ => none

/-- Table 10-7, the weekday byte ignored (R6); none when it is not well formed. -/
def decodeCivil (args : List Byte) : Option Civil :=
  let c : Civil :=
    { year := fieldAt args 0 2, month := fieldAt args 2 1, day := fieldAt args 3 1, hour := fieldAt args 4 1,
      minute := fieldAt args 5 1, second := fieldAt args 6 1, micro := fieldAt args 7 4 }
  if c.wellFormed then some c else none

/-- The fields a presence mask names (Table 10-8, bits 0 to 5). -/
def presenceCount (mask : Byte) : Nat :=
  (mask.getLsbD 0).toNat + (mask.getLsbD 1).toNat + (mask.getLsbD 2).toNat + (mask.getLsbD 3).toNat +
  (mask.getLsbD 4).toNat + (mask.getLsbD 5).toNat

/-- The optional field at position `at0` when its mask bit is set, and the position after it. -/
def optionalAt (args : List Byte) (present : Bool) (at0 : Nat) : Option Nat × Nat :=
  if present then (some (fieldAt args at0 1), at0 + 1) else (none, at0)

/-- Table 10-8: the pattern at position `at0`, and the position after it. -/
def patternAt (args : List Byte) (at0 : Nat) : Pattern × Nat :=
  let mask := byteAt args at0
  let month := optionalAt args (mask.getLsbD 0) (at0 + 1)
  let day := optionalAt args (mask.getLsbD 1) month.2
  let weekday := optionalAt args (mask.getLsbD 2) day.2
  let hour := optionalAt args (mask.getLsbD 3) weekday.2
  let minute := optionalAt args (mask.getLsbD 4) hour.2
  let second := optionalAt args (mask.getLsbD 5) minute.2
  ({ month := month.1, day := day.1, weekday := weekday.1, hour := hour.1, minute := minute.1,
     second := second.1, micro := fieldAt args second.2 4 }, second.2 + 4)

/-- The checked arguments of a CREATE_ENTRY: those of Table 10-10 that the entry's record takes. -/
structure CreateArgs where
  timing    : Timing
  remaining : Nat
  action    : Option LineAction
  notify    : NotifyMode
  tag       : Word32
  deriving DecidableEq, Repr

/-- Bytes of the line-action part of Table 10-10. -/
def actionLength (args : List Byte) : Nat := if (byteAt args 1).getLsbD 0 then 6 else 0

/-- Table 10-10: the length the argument field of a CREATE_ENTRY must have, for a kind in 0 to 3. -/
def createLength (args : List Byte) : Nat :=
  let body := 9 + actionLength args
  match (byteAt args 0).toNat with
  | 0 => body + 8
  | 1 => body + 12
  | 2 => body + 6 + presenceCount (byteAt args body)
  | _ => body + 6

/-- The timing part of Table 10-10 at position `at0`, every field in its range (R51 to R55); none otherwise. -/
def decodeTiming (args : List Byte) (at0 : Nat) : Option Timing :=
  match (byteAt args 0).toNat with
  | 0 => some (.once (fieldAt args at0 8))
  | 1 =>
    let period := fieldAt args (at0 + 8) 4
    if 100 ≤ period then some (.periodic (fieldAt args at0 8) (fieldAt args at0 8) period 0) else none
  | 2 =>
    let pat := patternAt args at0
    match decodePolicy (byteAt args pat.2) with
    | some policy =>
      if (byteAt args at0).toNat < 64 && pat.1.inRange then some (.pattern pat.1 none policy 0) else none
    | none => none
  | 3 =>
    match decodeInput (byteAt args at0), decodeYesNo (byteAt args (at0 + 5)) with
    | some i, some rearm => some (.afterCapture i (fieldAt args (at0 + 1) 4) rearm none)
    | _, _ => none
  | _ => none

/-- The line action of Table 10-10: absent, present and in range, or out of range (none). -/
def decodeOptionalAction (args : List Byte) : Option (Option LineAction) :=
  if (byteAt args 1).getLsbD 0 then (decodeLineAction args 9).map some else some none

/-- R51: a ONCE entry holds remaining 1 whatever the argument. -/
def heldRemaining (timing : Timing) (given : Nat) : Nat :=
  match timing with
  | .once _ => 1
  | .periodic _ _ _ _ => given
  | .pattern _ _ _ _ => given
  | .afterCapture _ _ _ _ => given

/-- Steps 1 and 2 of R50 with R51 to R55 and R194: the arguments, or MALFORMED or RANGE. -/
def decodeCreate (args : List Byte) : Except Status CreateArgs :=
  if args.length < 9 then .error .malformed
  else if 3 < (byteAt args 0).toNat then .error .range
  else if args.length ≠ createLength args then .error .malformed
  else if 1 < (byteAt args 1).toNat then .error .range
  else
    match decodeNotify (byteAt args 4), decodeOptionalAction args, decodeTiming args (9 + actionLength args) with
    | some notify, some action, some timing =>
      .ok { timing := timing, remaining := heldRemaining timing (fieldAt args 2 2), action := action,
            notify := notify, tag := BitVec.ofNat 32 (fieldAt args 5 4) }
    | _, _, _ => .error .range

/-- The five items of SET_PORT_CONFIG in their ranges (R171, Table 10-9), with the TIME_CHANGE and PEER_RESET
switches. -/
def decodeConfig (args : List Byte) : Option (DeliveryConfig × Bool × Bool) :=
  let timeout := fieldAt args 0 1
  let limit := fieldAt args 1 1
  let cap := fieldAt args 2 1
  let mask := byteAt args 4
  match decodeStall (byteAt args 3) with
  | some stall =>
    if 1 ≤ timeout && limit ≤ 15 && cap ≤ 7 && mask.toNat < 4 then
      some ({ ackTimeout := timeout, retryLimit := limit, backoffCap := cap, stall := stall },
            mask.getLsbD 0, mask.getLsbD 1)
    else none
  | none => none

end Sys2Proof.Machine
end

