-- ==== Sys2Proof/Machine/Layout.lean ====
section
/-! DEFINITION. What the T4 sends: fields, civil records, patterns, entry records, notification records, frames and
their CRC (R179, R194, Tables 10-2 to 10-14).
-/

namespace Sys2Proof.Machine

/-- An unsigned field of `n` bytes, least significant byte first (R194). -/
def toBytes : Nat → Nat → List Byte
  | 0, _ => []
  | n + 1, v => BitVec.ofNat 8 v :: toBytes n (v / 256)

/-- A signed field of `n` bytes in two's complement (R194). -/
def signedBytes (n : Nat) (v : Int) : List Byte := toBytes n (v % 2 ^ (8 * n)).toNat

/-- Table 10-5: a port, or 0xFF for NONE. -/
def portByte : Option Port → Byte
  | some p => BitVec.ofNat 8 p.val
  | none => 0xFF

/-- Table 10-5: id, then generation. -/
def Handle.bytes (h : Handle) : List Byte := [BitVec.ofNat 8 h.id.val, h.gen]

/-- Table 10-7, with the derived weekday (R6). -/
def Civil.bytes (c : Civil) : List Byte :=
  toBytes 2 c.year ++ toBytes 1 c.month ++ toBytes 1 c.day ++ toBytes 1 c.hour ++ toBytes 1 c.minute ++
  toBytes 1 c.second ++ toBytes 4 c.micro ++ toBytes 1 c.weekday

/-- An optional civil record: omitted when absent. -/
def civilBytes : Option Civil → List Byte
  | some c => c.bytes
  | none => []

/-- An optional one-byte field: omitted when absent. -/
def optionalByte : Option Nat → List Byte
  | some v => toBytes 1 v
  | none => []

/-- Table 10-8. -/
def Pattern.bytes (p : Pattern) : List Byte :=
  flagByte [p.month.isSome, p.day.isSome, p.weekday.isSome, p.hour.isSome, p.minute.isSome, p.second.isSome] ::
  (optionalByte p.month ++ optionalByte p.day ++ optionalByte p.weekday ++ optionalByte p.hour ++
   optionalByte p.minute ++ optionalByte p.second ++ toBytes 4 p.micro)

def levelCode : Level → Byte
  | .low => 0
  | .high => 1

def EntryState.code : EntryState → Byte
  | .dormant => 1
  | .waiting => 2
  | .armed => 3
  | .suspended => 4

def NotifyMode.code : NotifyMode → Byte
  | .always => 0
  | .faultsOnly => 1
  | .never => 2

def SkipPolicy.code : SkipPolicy → Byte
  | .catchUp => 0
  | .skip => 1

def StallAction.code : StallAction → Byte
  | .keep => 0
  | .release => 1

def DeliveryState.code : DeliveryState → Byte
  | .idle => 0
  | .awaitAck => 1
  | .backoff => 2
  | .stalled => 3

def FaultKind.code : FaultKind → Byte
  | .noFault => 0
  | .truncated => 1
  | .badLength => 2
  | .badCrc => 3
  | .badType => 4
  | .fifoFull => 5

def FiringOutcome.code : FiringOutcome → Byte
  | .ok => 0
  | .late => 1
  | .lineNotOwned => 2

def EndReason.code : EndReason → Byte
  | .captureLost => 0
  | .calendarEnd => 1

def AuthorityReason.code : AuthorityReason → Byte
  | .expired => 0
  | .free => 1

def ChangeReason.code : ChangeReason → Byte
  | .set => 0
  | .stepped => 1
  | .stepCancelled => 2
  | .slewDone => 3
  | .slewCancelled => 4
  | .invalidated => 5

def ChangeCause.code : ChangeCause → Byte
  | .request => 0
  | .calendarEnd => 1

def Polarity.code : Polarity → Byte
  | .rising => 0
  | .falling => 1

def boolByte (b : Bool) : Byte := if b then 1 else 0

/-- Table 10-5: the kind's code. -/
def Timing.kindCode : Timing → Byte
  | .once _ => 0
  | .periodic _ _ _ _ => 1
  | .pattern _ _ _ _ => 2
  | .afterCapture _ _ _ _ => 3

/-- The due of an entry where its kind and state give it one (R57). -/
def Timing.due : Timing → Option Nat
  | .once d => some d
  | .periodic d _ _ _ => some d
  | .pattern _ _ _ _ => none
  | .afterCapture _ _ _ d => d

/-- The next match of an entry where its kind and state give it one (R57). -/
def Timing.next : Timing → Option Civil
  | .once _ => none
  | .periodic _ _ _ _ => none
  | .pattern _ n _ _ => n
  | .afterCapture _ _ _ _ => none

/-- Table 10-12: line, action, and the width for PULSE only. -/
def LineAction.bytes (a : LineAction) : List Byte :=
  BitVec.ofNat 8 a.line.val :: match a.action with
    | .toActive => [0]
    | .toIdle => [1]
    | .toggle => [2]
    | .pulse w => 3 :: toBytes 4 w

def actionBytes : Option LineAction → List Byte
  | some a => a.bytes
  | none => []

def dueBytes : Option Nat → List Byte
  | some d => toBytes 8 d
  | none => []

/-- Table 10-12: the part of the entry's kind, the next match standing before the input (no kind has both). -/
def Timing.partBytes : Timing → List Byte
  | .once _ => []
  | .periodic _ first period skips => toBytes 8 first ++ toBytes 4 period ++ toBytes 1 skips
  | .pattern pat next policy skips => pat.bytes ++ [policy.code] ++ toBytes 1 skips ++ civilBytes next
  | .afterCapture i delay rearm _ => BitVec.ofNat 8 i.val :: (toBytes 4 delay ++ [boolByte rearm])

/-- Table 10-12: the entry record of a QUERY_ENTRY result. -/
def Entry.bytes (e : Entry) (h : Handle) : List Byte :=
  h.bytes ++ [portByte (some e.owner), e.timing.kindCode, e.state.code] ++
  [flagByte [e.action.isSome, e.timing.due.isSome, e.timing.next.isSome]] ++
  toBytes 2 e.remaining ++ [e.notify.code] ++ toBytes 4 e.tag.toNat ++
  actionBytes e.action ++ dueBytes e.timing.due ++ e.timing.partBytes

/-- Table 10-5: the overtaken source. -/
def sourceBytes : Option Source → List Byte
  | none => [0]
  | some (.entry h) => 1 :: h.bytes
  | some .direct => [2]

/-- Table 10-14, FIRED. -/
def FiredRecord.bytes (r : FiredRecord) : List Byte :=
  r.handle.bytes ++ toBytes 4 r.tag.toNat ++
  (match r.intended with
   | .run t => flagByte [false, r.civilStamp.isSome, r.final] :: toBytes 8 t
   | .civil c => flagByte [true, r.civilStamp.isSome, r.final] :: c.bytes) ++
  toBytes 8 r.fireTime ++ civilBytes r.civilStamp ++ [r.outcome.code] ++ toBytes 1 r.skipped ++
  sourceBytes r.overtaken

/-- Table 10-14, ENTRY_ENDED. -/
def EndedRecord.bytes (r : EndedRecord) : List Byte :=
  r.handle.bytes ++ toBytes 4 r.tag.toNat ++ [r.reason.code] ++ toBytes 8 r.runTime

/-- Table 10-14, CAPTURE. -/
def CaptureRecord.bytes (r : CaptureRecord) : List Byte :=
  [BitVec.ofNat 8 r.input.val, r.polarity.code, flagByte [r.civilStamp.isSome]] ++ toBytes 8 r.runStamp ++
  civilBytes r.civilStamp ++ toBytes 2 r.suppressed ++ toBytes 1 r.armed

/-- Table 10-14, AUTHORITY. -/
def AuthorityRecord.bytes (r : AuthorityRecord) : List Byte := r.reason.code :: toBytes 8 r.runTime

/-- Table 10-14, TIME_CHANGE. -/
def ChangeRecord.bytes (r : ChangeRecord) : List Byte :=
  [r.reason.code, r.cause.code, flagByte [r.requester.isSome, r.offset.isSome, r.civilAfter.isSome]] ++
  (match r.requester with
   | some p => [portByte (some p)]
   | none => []) ++
  (match r.offset with
   | some v => signedBytes 8 v
   | none => []) ++
  toBytes 8 r.runTime ++ civilBytes r.civilAfter

/-- Table 10-14, PEER_RESET. -/
def PeerResetRecord.bytes (r : PeerResetRecord) : List Byte :=
  portByte (some r.port) :: (toBytes 1 r.entries ++ toBytes 1 r.lines ++ toBytes 1 r.inputs ++ toBytes 8 r.runTime)

/-- Table 10-5: record kinds. -/
def Record.kindCode : Record → Byte
  | .fired _ => 1
  | .entryEnded _ => 2
  | .capture _ => 3
  | .authority _ => 4
  | .timeChange _ => 5
  | .peerReset _ => 6

/-- Table 10-14: the part of the record's kind. -/
def Record.partBytes : Record → List Byte
  | .fired r => r.bytes
  | .entryEnded r => r.bytes
  | .capture r => r.bytes
  | .authority r => r.bytes
  | .timeChange r => r.bytes
  | .peerReset r => r.bytes

/-- The payload of a NOTE frame: the epoch, then the record (10.8, ACK and NOTE frames). -/
def notePayload (epoch : Byte) (q : Queued) : List Byte :=
  epoch :: (toBytes 2 q.seq.toNat ++ [q.record.kindCode] ++ toBytes 1 q.lostBefore ++ q.record.partBytes)

/-- R179: the CRC register after one data bit. -/
def crcBit (reg : Word16) (bit : Bool) : Word16 :=
  if (reg.msb != bit) then (reg <<< 1) ^^^ Config.crcPolynomial else reg <<< 1

/-- R179: the CRC register after one byte, most significant bit first. -/
def crcByte (reg : Word16) (b : Byte) : Word16 :=
  [7, 6, 5, 4, 3, 2, 1, 0].foldl (fun r i => crcBit r (b.getLsbD i)) reg

/-- R179: the CRC over the LEN, TYPE and payload bytes. -/
def crc (bytes : List Byte) : Word16 := bytes.foldl crcByte Config.crcStart

/-- R179: a frame: SYNC, LEN, TYPE and payload, CRC low byte first. -/
def frameBytes (type : Byte) (payload : List Byte) : List Byte :=
  let body := BitVec.ofNat 8 (payload.length + 1) :: type :: payload
  Config.sync :: (body ++ toBytes 2 (crc body).toNat)

/-- Table 10-3: the RESPONSE frame of a response's payload. -/
def responseFrame (payload : List Byte) : List Byte := frameBytes 0x81 payload

/-- Table 10-3: the NOTE frame of a queued record in an epoch. -/
def noteFrame (epoch : Byte) (q : Queued) : List Byte := frameBytes 0x82 (notePayload epoch q)

end Sys2Proof.Machine
end

