-- ==== Sys2Proof/Machine/Ops.lean ====
section
/-! DEFINITION. The named operations over the state that the meanings share: accessors, the offer of a record, the due
lists, the freeing of an entry, the taking and answering of a request, and the Delivery Engine's handing of frames.
-/

namespace Sys2Proof.Machine

/-! ### Accessors -/

/-- P0 to P3 in number order. -/
def allPorts : List Port := [0, 1, 2, 3]

/-- The 64 ids in ascending order. -/
def allIds : List EntryId := List.finRange 64

def State.port (s : State) (p : Port) : PortState := s.ports[p]

def State.setPort (s : State) (p : Port) (x : PortState) : State := { s with ports := s.ports.set p x }

def State.slot (s : State) (i : EntryId) : Slot := s.slots[i]

def State.setSlot (s : State) (i : EntryId) (x : Slot) : State := { s with slots := s.slots.set i x }

def State.line (s : State) (l : Line) : LineState := s.lines[l]

def State.setLine (s : State) (l : Line) (x : LineState) : State := { s with lines := s.lines.set l x }

def State.input (s : State) (i : Input) : InputState := s.inputs[i]

def State.setInput (s : State) (i : Input) (x : InputState) : State := { s with inputs := s.inputs.set i x }

def State.setLists (s : State) (mono : List MonoPos) (civils : List CivilPos) : State :=
  { s with mono := mono, civils := civils }

def State.setCounts (s : State) (held : Vector Nat 4) (poolUse : Nat) : State :=
  { s with held := held, poolUse := poolUse }

def State.setAuthority (s : State) (lease : Option Lease) (waiters : Vector Bool 4) : State :=
  { s with lease := lease, waiters := waiters }

def State.setCivilTime (s : State) (civil : Option Civil) (slew : Option Slew) (step : Option PendingStep) : State :=
  { s with civil := civil, slew := slew, step := step }

def State.setReached (s : State) (reached : Reached) : State := { s with reached := reached }

/-- A port's link changed, its queue and engine left as they are. -/
def State.setLink (s : State) (p : Port) (x : Link) : State := s.setPort p { s.port p with link := x }

def State.link (s : State) (p : Port) : Link := (s.port p).link

/-- R18: the port holds the authority. -/
def State.holds (s : State) (p : Port) : Bool :=
  match s.lease with
  | some l => l.holder == p
  | none => false

/-- R111: the port owns the line. -/
def State.ownsLine (s : State) (p : Port) (l : Line) : Bool :=
  match (s.line l).claim with
  | some c => c.owner == p
  | none => false

/-- R129: the port owns the input. -/
def State.ownsInput (s : State) (p : Port) (i : Input) : Bool :=
  match (s.input i).claim with
  | some c => c.owner == p
  | none => false

/-- Every event but the two of RST_N is taken only while RST_N is high (R1, R128, R144, R145, R162, R193); while it
is low the command changes nothing (notes/assumptions/1). -/
def whenReleased (s : State) (f : State → State) : Host.Outcome State Fault Refusal :=
  .next (if s.rstN then f s else s)

/-! ### Notification queues (R147, R148, R163) -/

/-- R148: the record's kind is subject to the mask and off in it. -/
def NoteQueue.masksOff (q : NoteQueue) : Record → Bool
  | .timeChange _ => !q.timeChangeOn
  | .peerReset _ => !q.peerResetOn
  | .fired _ => false
  | .entryEnded _ => false
  | .capture _ => false
  | .authority _ => false

/-- R147: an offer of a record to a queue. -/
def NoteQueue.offer (q : NoteQueue) (r : Record) : NoteQueue :=
  if q.masksOff r then q
  else if Config.queueCapacity ≤ q.records.length then
    { q with pendingLost := saturate 255 (q.pendingLost + 1), lostTotal := q.lostTotal + 1 }
  else
    { q with records := q.records ++ [{ seq := q.nextSeq, lostBefore := q.pendingLost, record := r }],
             nextSeq := q.nextSeq + 1, pendingLost := 0 }

/-- R163, R165, R169: the engine hands a NOTE frame for the head with attempts 0 and enters AWAIT_ACK. -/
def Engine.hand (e : Engine) : Engine := { e with state := .awaitAck, attempts := 0, frame := .queued }

/-- R147, R163: the offer, and the handing of the frame when the record arrives in an empty queue at an IDLE engine. -/
def PortState.offer (ps : PortState) (r : Record) : PortState :=
  let q := ps.queue.offer r
  { ps with
    queue := q
    engine := if ps.queue.records.isEmpty && !q.records.isEmpty && ps.engine.state == .idle then ps.engine.hand
              else ps.engine }

/-- A record offered to one port. -/
def State.offer (s : State) (p : Port) (r : Record) : State := s.setPort p ((s.port p).offer r)

/-- Records offered to one port in order. -/
def State.offerAll (s : State) (p : Port) (rs : List Record) : State := rs.foldl (fun s r => s.offer p r) s

/-- Each port is offered its own list of records, in order. -/
def State.offerEach (s : State) (f : Port → List Record) : State :=
  allPorts.foldl (fun s p => s.offerAll p (f p)) s

/-- R151: a copy of one record offered to each of the four ports. -/
def State.broadcast (s : State) (r : Record) : State := s.offerEach (fun _ => [r])

/-- R14, R38: a TIME_CHANGE record stamped with the state as it stands. -/
def State.timeChange (s : State) (reason : ChangeReason) (cause : ChangeCause) (requester : Option Port)
    (offset : Option Int) : Record :=
  .timeChange { reason := reason, cause := cause, requester := requester, offset := offset,
                runTime := s.runTime, civilAfter := s.civil }

/-! ### Due lists (R66 to R68, R96, R97) -/

/-- R66: the order of the MONO due list. -/
def MonoPos.before (a b : MonoPos) : Bool := a.due < b.due || (a.due == b.due && a.id < b.id)

/-- R96: the order of the CIVIL due list. -/
def CivilPos.before (a b : CivilPos) : Bool :=
  a.next.count < b.next.count || (a.next.count == b.next.count && a.id < b.id)

def insertMono (x : MonoPos) : List MonoPos → List MonoPos
  | [] => [x]
  | y :: ys => if x.before y then x :: y :: ys else y :: insertMono x ys

def insertCivil (x : CivilPos) : List CivilPos → List CivilPos
  | [] => [x]
  | y :: ys => if x.before y then x :: y :: ys else y :: insertCivil x ys

/-- R68, R97: the entry's position, if any, leaves its list. -/
def State.unlist (s : State) (id : EntryId) : State :=
  s.setLists (s.mono.filter (fun x => x.id != id)) (s.civils.filter (fun x => x.id != id))

/-- The entry's record replaced in its slot. -/
def State.setEntry (s : State) (id : EntryId) (e : Entry) : State :=
  s.setSlot id { gen := (s.slot id).gen, entry := some e }

/-- The timing with a due written into it. -/
def Timing.withDue (due : Nat) : Timing → Timing
  | .once _ => .once due
  | .periodic _ first period skips => .periodic due first period skips
  | .pattern p n policy skips => .pattern p n policy skips
  | .afterCapture i delay rearm _ => .afterCapture i delay rearm (some due)

/-- The timing with a next match written into it. -/
def Timing.withNext (next : Civil) : Timing → Timing
  | .once d => .once d
  | .periodic d first period skips => .periodic d first period skips
  | .pattern p _ policy skips => .pattern p (some next) policy skips
  | .afterCapture i delay rearm d => .afterCapture i delay rearm d

/-- R60: the timing without what only an ARMED entry keeps: the due of an AFTER_CAPTURE entry, the next match of a
PATTERN entry. -/
def Timing.disarmed : Timing → Timing
  | .once d => .once d
  | .periodic d first period skips => .periodic d first period skips
  | .pattern p _ policy skips => .pattern p none policy skips
  | .afterCapture i delay rearm _ => .afterCapture i delay rearm none

/-- R75: the carried skips. -/
def Timing.skips : Timing → Nat
  | .once _ => 0
  | .periodic _ _ _ skips => skips
  | .pattern _ _ _ skips => skips
  | .afterCapture _ _ _ _ => 0

/-- The timing with its carried skips set. -/
def Timing.withSkips (skips : Nat) : Timing → Timing
  | .once d => .once d
  | .periodic d first period _ => .periodic d first period skips
  | .pattern p n policy _ => .pattern p n policy skips
  | .afterCapture i delay rearm d => .afterCapture i delay rearm d

/-- R75, R82, R103, R104: skips added, saturating at 255. -/
def Entry.addSkips (e : Entry) (n : Nat) : Entry :=
  { e with timing := e.timing.withSkips (saturate 255 (e.timing.skips + n)) }

/-- R47, R67: the entry enters ARMED with a due, in the MONO due list. -/
def State.armMono (s : State) (id : EntryId) (e : Entry) (due : Nat) (late : Bool) : State :=
  let t := (s.unlist id).setEntry id { e with state := .armed, timing := e.timing.withDue due }
  t.setLists (insertMono { id := id, due := due, late := late } t.mono) t.civils

/-- R47, R97: the entry enters ARMED with a next match, in the CIVIL due list. -/
def State.armCivil (s : State) (id : EntryId) (e : Entry) (next : Civil) : State :=
  let t := (s.unlist id).setEntry id { e with state := .armed, timing := e.timing.withNext next }
  t.setLists t.mono (insertCivil { id := id, next := next } t.civils)

/-- R47, R60: the entry enters a state in which it stands in no list. -/
def State.park (s : State) (id : EntryId) (e : Entry) (st : EntryState) : State :=
  (s.unlist id).setEntry id { e with state := st, timing := e.timing.disarmed }

/-! ### Allocation and freeing (R43, R45, R48) -/

/-- R48: the pool use that the held counts give. -/
def poolUseOf (held : Vector Nat 4) : Nat :=
  allPorts.foldl (fun n p => n + (held[p] - Config.reservedEntries)) 0

/-- R48: a port's held count replaced and the pool use formed again. -/
def State.setHeld (s : State) (p : Port) (n : Nat) : State :=
  let held := s.held.set p n
  s.setCounts held (poolUseOf held)

def State.heldBy (s : State) (p : Port) : Nat := s.held[p]

/-- R45: an entry is freed. -/
def State.freeEntry (s : State) (id : EntryId) : State :=
  match (s.slot id).entry with
  | none => s
  | some e =>
    let t := (s.unlist id).setSlot id { gen := (s.slot id).gen, entry := none }
    t.setHeld e.owner (t.heldBy e.owner - 1)

/-- The handle of the entry in a slot. -/
def State.handleOf (s : State) (id : EntryId) : Handle := { id := id, gen := (s.slot id).gen }

/-- R95, R133, R156: the entry ends with an ENTRY_ENDED record, whatever its notify mode, and is freed. -/
def State.endEntry (s : State) (id : EntryId) (reason : EndReason) : State :=
  match (s.slot id).entry with
  | none => s
  | some e =>
    (s.offer e.owner
      (.entryEnded { handle := s.handleOf id, tag := e.tag, reason := reason, runTime := s.runTime })).freeEntry id

/-- R43: the lowest id whose slot is FREE. -/
def State.lowestFree (s : State) : Option EntryId := allIds.find? (fun i => (s.slot i).entry.isNone)

/-- R49: the quota check. -/
def State.quotaOk (s : State) (p : Port) : Bool :=
  s.heldBy p < Config.reservedEntries || s.poolUse < Config.poolCapacity

/-- R43: the slot's generation is incremented and the record filled; the owner's held count follows. -/
def State.allocate (s : State) (id : EntryId) (e : Entry) : State :=
  let t := s.setSlot id { gen := (s.slot id).gen + 1, entry := some e }
  t.setHeld e.owner (t.heldBy e.owner + 1)

/-! ### Requests and responses (R185, R186, R190) -/

/-- What a request answers: its status, its results, and whether a port reset takes effect at its end. -/
structure Reply where
  status  : Status
  results : List Byte
  resets  : Bool
  deriving DecidableEq, Repr

/-- A status with empty results. -/
def Reply.plain (st : Status) : Reply := { status := st, results := [], resets := false }

/-- OK with results. -/
def Reply.okWith (results : List Byte) : Reply := { status := .ok, results := results, resets := false }

/-- R190: a PORT_RESET has been taken at the port and its reset has yet to take effect. -/
def Link.resetAwaited (l : Link) : Bool :=
  l.responses.any (fun r => r.resets) ||
  match l.tx with
  | some (.response _ resets) => resets
  | some (.note _ _) => false
  | some (.cut _ _) => false
  | none => false

/-- R185: the payload of the request the port may take now: the FIFO's head. -/
def Link.takable (l : Link) : Option (List Byte) :=
  if Config.responseCapacity ≤ l.responses.length || l.resetAwaited then none else l.fifo.head?

/-- R185: the request leaves the FIFO and is counted as executed. -/
def Link.take (l : Link) : Link :=
  { l with fifo := l.fifo.drop 1, requestsExecuted := l.requestsExecuted + 1 }

/-- R185, R186: the response joins the pending responses as the newest. -/
def Link.respond (l : Link) (tag code : Byte) (r : Reply) : Link :=
  { l with responses := l.responses ++ [{ payload := tag :: code :: r.status.code :: r.results, resets := r.resets }] }

def State.takeRequest (s : State) (p : Port) : State := s.setLink p (s.link p).take

def State.respond (s : State) (p : Port) (tag code : Byte) (r : Reply) : State :=
  s.setLink p ((s.link p).respond tag code r)

/-- R185, R186: the port takes the request at its FIFO's head, if it may take one and the head carries `code`; the
request is carried out on its arguments and its response made ready.  Any other head is left where it is
(notes/assumptions/1 and 16). -/
def State.serve (s : State) (p : Port) (code : Byte) (run : List Byte → State → State × Reply) : State :=
  match (s.link p).takable with
  | some (tag :: c :: args) =>
    if c = code then
      let r := run args (s.takeRequest p)
      r.1.respond p tag code r.2
    else s
  | some [_] => s
  | some [] => s
  | none => s

/-- A request whose argument field must have length `n`: any other length is answered MALFORMED and changes nothing. -/
def withLength (n : Nat) (run : List Byte → State → State × Reply) (args : List Byte) (s : State) : State × Reply :=
  if args.length = n then run args s else (s, Reply.plain .malformed)

/-- A request answered without a change of state. -/
def refuse (s : State) (st : Status) : State × Reply := (s, Reply.plain st)

/-! ### Delivery Engine (R164 to R169) -/

/-- R169: a resumption, taken when the engine is STALLED. -/
def Engine.resume (e : Engine) : Engine :=
  if e.state = .stalled then { e.hand with stalledAt := none, retransmissions := e.retransmissions + 1 } else e

/-- R165, R173, R192: the frame on the line runs on, but no longer as the engine's frame or with a reset at its end. -/
def TxFrame.disown : TxFrame → TxFrame
  | .response bytes _ => .response bytes false
  | .note bytes _ => .note bytes false
  | .cut bytes isNote => .cut bytes isNote

/-- R173: at a break the frame on the line ends with the character being transmitted. -/
def TxFrame.cutShort : TxFrame → TxFrame
  | .response bytes _ => .cut bytes false
  | .note bytes _ => .cut bytes true
  | .cut bytes isNote => .cut bytes isNote

/-- R165 step 3: a NOTE frame on the line is no longer the engine's. -/
def TxFrame.disownNote : TxFrame → TxFrame
  | .response bytes resets => .response bytes resets
  | .note bytes _ => .note bytes false
  | .cut bytes isNote => .cut bytes isNote

end Sys2Proof.Machine
end

