-- ==== Sys2Proof/Machine/Firing.lean ====
section
/-! DEFINITION. The firing procedure common to every kind (R71 to R77), line actions (R117, R121), and the changes of
civil time that reach PATTERN entries (R95, R100 to R105).
-/

namespace Sys2Proof.Machine

/-! ### Line Control (R117, R121) -/

/-- R117: an action applied to an owned line; the overtaken source is returned with the line. -/
def LineState.apply (l : LineState) (c : LineClaim) (a : Action) (now : Nat) (src : Source) :
    LineState × Option Source :=
  let overtaken := l.pulse.map (fun x => x.source)
  match a with
  | .toActive => ({ l with level := flipLevel c.idle, pulse := none }, overtaken)
  | .toIdle => ({ l with level := c.idle, pulse := none }, overtaken)
  | .toggle => ({ l with level := flipLevel l.level, pulse := none }, overtaken)
  | .pulse w => ({ l with level := flipLevel c.idle, pulse := some { endAt := endInstant now w, source := src } }, overtaken)

/-- What Line Control answers a firing: the line owned or not, and the overtaken source. -/
structure LineAnswer where
  owned     : Bool
  overtaken : Option Source
  deriving DecidableEq, Repr

/-- R71, R116, R121, R127: Line Control asked to apply an entry's line action for its owner; an absent action does not reach
it.  A port that does not own the line never drives it and answers LINE_NOT_OWNED in every order (R125, R127), where the last
sentence of R88 has another port's firing drive a line of the reset port when it is taken before the reset; the two exclude
each other (model's choice, notes/assumptions/27). -/
def State.askLine (s : State) (action : Option LineAction) (owner : Port) (src : Source) : State × LineAnswer :=
  match action with
  | none => (s, { owned := true, overtaken := none })
  | some a =>
    match (s.line a.line).claim with
    | none => (s, { owned := false, overtaken := none })
    | some c =>
      if c.owner = owner then
        let r := (s.line a.line).apply c a.action s.runTime src
        (s.setLine a.line r.1, { owned := true, overtaken := r.2 })
      else (s, { owned := false, overtaken := none })

/-! ### The firing procedure (Table 4-2, steps 1 to 5) -/

/-- A firing after step 5: the state, the entry as the firing leaves it, and whether it is FINAL. -/
structure Fired where
  state : State
  entry : Entry
  final : Bool

/-- R71 to R77: the entry leaves its list, its line action is applied, the outcome formed, the remaining count
consumed and the FIRED record offered as its notify mode decides.  `ends` marks the kinds that every firing
ends (R78, R80 case 1). -/
def State.fire (s : State) (id : EntryId) (e : Entry) (intended : Intended) (late ends : Bool) : Fired :=
  let asked := (s.unlist id).askLine e.action e.owner (.entry (s.handleOf id))
  let outcome := firingOutcome asked.2.owned late
  let final := ends || lastFiring e.remaining
  let left := { e with remaining := consumeRemaining e.remaining }
  if firedOffered e.notify outcome final then
    let r : FiredRecord :=
      { handle := s.handleOf id, tag := e.tag, intended := intended, fireTime := s.runTime, civilStamp := s.civil,
        outcome := outcome, skipped := e.timing.skips, final := final, overtaken := asked.2.overtaken }
    { state := asked.1.offer e.owner (.fired r), entry := { left with timing := left.timing.withSkips 0 },
      final := final }
  else { state := asked.1, entry := left, final := final }

/-- R82: the last grid instant at or before now, as its number. -/
def gridIndex (now firstDue period : Nat) : Nat := (now - firstDue) / period

/-- R82: grid instants after the due held and at or before now. -/
def passedGrid (now due firstDue period : Nat) : Nat := gridIndex now firstDue period - (due - firstDue) / period

/-- R79, R82: the next due of a PERIODIC entry. -/
def nextDue (now due firstDue period : Nat) (late : Bool) : Nat :=
  if late then endInstant (firstDue + gridIndex now firstDue period * period) period else endInstant due period

/-- R71, R76 to R83: the firing of one position of the MONO due list.  A position whose slot holds no entry of a
run-time kind, which no run makes, is dropped (notes/assumptions/22). -/
def State.fireMono (s : State) (pos : MonoPos) : State :=
  match (s.slot pos.id).entry with
  | none => s.unlist pos.id
  | some e =>
    match e.timing with
    | .once _ => (s.fire pos.id e (.run pos.due) pos.late true).state.freeEntry pos.id
    | .periodic _ first period _ =>
      let counted := if pos.late then e.addSkips (passedGrid s.runTime pos.due first period) else e
      let f := s.fire pos.id counted (.run pos.due) pos.late false
      if f.final then f.state.freeEntry pos.id
      else f.state.armMono pos.id f.entry (nextDue s.runTime pos.due first period pos.late) false
    | .pattern _ _ _ _ => s.unlist pos.id
    | .afterCapture input _ rearm _ =>
      let f := s.fire pos.id e (.run pos.due) pos.late (!rearm)
      if f.final then f.state.freeEntry pos.id
      else if f.state.ownsInput e.owner input then f.state.park pos.id f.entry .waiting
      else f.state.endEntry pos.id .captureLost

/-! ### PATTERN entries (05) -/

/-- R94, R95: the entry is armed at the match found, or ended with CALENDAR_END. -/
def State.placeAt (s : State) (id : EntryId) (e : Entry) (found : Option Civil) : State :=
  match found with
  | some m => s.armCivil id e m
  | none => s.endEntry id .calendarEnd

/-- R99: the firing of one position of the CIVIL due list. -/
def State.fireCivil (s : State) (pos : CivilPos) : State :=
  match (s.slot pos.id).entry with
  | none => s.unlist pos.id
  | some e =>
    match e.timing with
    | .pattern pat _ _ _ =>
      let f := s.fire pos.id e (.civil pos.next) false false
      if f.final then f.state.freeEntry pos.id
      else f.state.placeAt pos.id f.entry (pat.strictlyAfter pos.next)
    | .once _ => s.unlist pos.id
    | .periodic _ _ _ _ => s.unlist pos.id
    | .afterCapture _ _ _ _ => s.unlist pos.id

/-- R102 to R104: one entry taken at a forward step to `new`. -/
def State.passOver (s : State) (new : Civil) (pos : CivilPos) : State :=
  match (s.slot pos.id).entry with
  | none => s.unlist pos.id
  | some e =>
    match e.timing with
    | .pattern pat _ .catchUp _ =>
      let f := s.fire pos.id (e.addSkips (pat.passedMatches pos.next new - 1)) (.civil pos.next) true false
      if f.final then f.state.freeEntry pos.id else f.state.placeAt pos.id f.entry (pat.atOrAfter new)
    | .pattern pat _ .skip _ =>
      s.placeAt pos.id (e.addSkips (pat.passedMatches pos.next new)) (pat.atOrAfter new)
    | .once _ => s.unlist pos.id
    | .periodic _ _ _ _ => s.unlist pos.id
    | .afterCapture _ _ _ _ => s.unlist pos.id

/-- R105: one entry placed anew at a backward step to `new`. -/
def State.placeBack (s : State) (new : Civil) (pos : CivilPos) : State :=
  match (s.slot pos.id).entry with
  | none => s.unlist pos.id
  | some e =>
    match e.timing with
    | .pattern pat _ _ _ => s.placeAt pos.id e (pat.atOrAfter new)
    | .once _ => s.unlist pos.id
    | .periodic _ _ _ _ => s.unlist pos.id
    | .afterCapture _ _ _ _ => s.unlist pos.id

/-- 5.4: a step of civil time from `old` to `new` handed to the CIVIL due list. -/
def State.stepPatterns (s : State) (old new : Civil) : State :=
  if old.count < new.count then
    (s.civils.filter (fun x => x.next.count < new.count)).foldl (fun t x => t.passOver new x) s
  else if new.count < old.count then s.civils.foldl (fun t x => t.placeBack new x) s
  else s

/-- R100: one entry at a SET_CIVIL taken while UNSET: a DORMANT PATTERN entry is armed or ended. -/
def State.wake (s : State) (now : Civil) (id : EntryId) : State :=
  match (s.slot id).entry with
  | none => s
  | some e =>
    match e.state, e.timing with
    | .dormant, .pattern pat _ _ _ => s.placeAt id e (pat.atOrAfter now)
    | _, _ => s

/-- R100: the DORMANT PATTERN entries in ascending id order. -/
def State.wakePatterns (s : State) (now : Civil) : State := allIds.foldl (fun t i => t.wake now i) s

/-- R101: one entry at an invalidation: an ARMED PATTERN entry becomes DORMANT, its next match discarded. -/
def State.sleep (s : State) (id : EntryId) : State :=
  match (s.slot id).entry with
  | none => s
  | some e =>
    match e.state, e.timing with
    | .armed, .pattern _ _ _ _ => s.park id e .dormant
    | _, _ => s

/-- R101: every ARMED PATTERN entry becomes DORMANT and the CIVIL due list is left empty. -/
def State.sleepPatterns (s : State) : State :=
  let t := allIds.foldl State.sleep s
  t.setLists t.mono []

/-! ### Corrections of civil time (R27, R29, R30, R36, R37, R39) -/

/-- R35, R39: SLEW_CANCELLED, when a slew was running. -/
def State.slewCancelled (s : State) (old : Option Slew) (cause : ChangeCause) : List Record :=
  match old, cause with
  | none, _ => []
  | some w, .request => [s.timeChange .slewCancelled .request (some w.requester) none]
  | some _, .calendarEnd => [s.timeChange .slewCancelled .calendarEnd none none]

/-- R39: STEP_CANCELLED, when a step was pending. -/
def State.stepCancelled (s : State) (old : Option PendingStep) (cause : ChangeCause) : List Record :=
  match old, cause with
  | none, _ => []
  | some w, .request => [s.timeChange .stepCancelled .request (some w.requester) none]
  | some _, .calendarEnd => [s.timeChange .stepCancelled .calendarEnd none none]

/-- R27, R29, R30: civil time moves from `old` to `new`; slew and pending step are gone, `cancelled` is the step
reported as cancelled; then the step reaches the CIVIL due list and the change is reported (order of R39). -/
def State.moveCivil (s : State) (old new : Civil) (cancelled : Option PendingStep) (reason : ChangeReason)
    (requester : Port) (offset : Int) : State :=
  let t := s.setCivilTime (some new) none none
  let u := (t.offerEach (fun _ => t.slewCancelled s.slew .request ++ t.stepCancelled cancelled .request)).stepPatterns
    old new
  u.broadcast (u.timeChange reason .request (some requester) (some offset))

/-- R36, R37: civil time becomes UNSET; slew and step are cancelled, ARMED PATTERN entries become DORMANT, and the
records are offered in the order of R39. -/
def State.invalidate (s : State) (cause : ChangeCause) (requester : Option Port) : State :=
  let t := (s.setCivilTime none none none).sleepPatterns
  t.offerEach (fun _ =>
    t.slewCancelled s.slew cause ++ t.stepCancelled s.step cause ++ [t.timeChange .invalidated cause requester none])

end Sys2Proof.Machine
end

