-- ==== Sys2Proof/Machine/Timebase.lean ====
section
/-! DEFINITION. The Timebase Unit's own events (RUN_TIME_ADVANCE, ADJUSTED_ADVANCE, SECOND_BOUNDARY, CALENDAR_END)
and READ_TIME (01; 02, R30, R34, R35, R37).
-/

namespace Sys2Proof.Machine

/-- The instant, if held, lies after `now`. -/
def laterThan (now : Nat) : Option Nat → Bool
  | none => true
  | some t => now < t

/-- R181: the gap that the receiver watches began more than 1,000 µs ago, and no start bit has ended it. -/
def Link.gapOver (l : Link) (now : Nat) : Bool :=
  l.arriving.isNone &&
  match l.rx with
  | .waitMark => false
  | .hunt => false
  | .length gap => gap + Config.gapLimit < now
  | .body _ _ gap => gap + Config.gapLimit < now

/-- R184: the receive line has been at space for 2,000 µs, counted from its change from mark. -/
def Link.spaceLong (l : Link) (now : Nat) : Bool := l.spaceSince.any (fun t => t + Config.breakTime ≤ now)

/-- R69: the head of the MONO due list is due. -/
def State.monoDue (s : State) : Bool := s.mono.head?.any (fun x => x.due ≤ s.runTime)

/-- R98: the head of the CIVIL due list is due. -/
def State.civilDue (s : State) : Bool :=
  s.civils.head?.any (fun x => s.civil.any (fun c => x.next.count ≤ c.count))

/-- R79: every position whose late mark is clear may wait over one more advance; the bound is the model's choice
(notes/assumptions/31). -/
def State.lagWithin (s : State) : Bool := s.mono.all (fun x => x.late || s.runTime + 1 < x.due + Config.firingLag)

/-- R3, R12, R69, R98: no expiry, no second boundary and no firing that the present instant's advance reached is still to
be taken, and no on-time firing would come to lag its due too far (R79), so the next advance may be taken
(notes/assumptions/8, 29 and 31).  A request that may be taken, a frame held on a free
line and an ACK handed to its engine hold no advance back (model's choice, notes/assumptions/30). -/
def State.settled (s : State) : Bool :=
  !(s.reached.mono && s.monoDue) && !(s.reached.civil && s.civilDue) && s.lagWithin &&
  laterThan s.runTime (s.lease.map (fun l => l.expiry)) &&
  s.lines.toList.all (fun l => laterThan s.runTime (l.pulse.map (fun x => x.endAt))) &&
  s.inputs.toList.all (fun i => laterThan s.runTime (i.claim.bind (fun c => c.holdoffEnd))) &&
  s.ports.toList.all (fun p =>
    laterThan s.runTime p.engine.ackEnd && laterThan s.runTime p.engine.backoffEnd &&
    !p.link.gapOver s.runTime && !p.link.spaceLong s.runTime) &&
  (s.step.bind (fun x => x.reached)).isNone

/-- R1, R2: run time after the advance; past the end of its range a free value (notes/assumptions/3). -/
def State.tick (s : State) : State :=
  if s.runTime + 1 < Config.runTimeLimit then { s with runTime := s.runTime + 1, refclkCycles := 0 }
  else { s with runTime := (Config.runTimePastEnd s.freeCount).toNat, refclkCycles := 0, freeCount := s.freeCount + 1 }

/-- R34: the next advance is an adjusted one. -/
def Slew.adjusts (w : Slew) : Bool := w.interval ≤ w.count + 1

/-- R10, R34: how far the next advance moves a VALID civil time: 2 or 0 at an adjusted advance, else 1. -/
def advanceAmount (slew : Option Slew) : Nat :=
  match slew with
  | none => 1
  | some w => if w.adjusts then (1 + w.remaining.sign).toNat else 1

/-- R34, R35: the slew after an advance; none when its remaining offset reaches 0. -/
def Slew.counted (w : Slew) : Option Slew :=
  if w.adjusts then
    if w.remaining - w.remaining.sign = 0 then none
    else some { w with remaining := w.remaining - w.remaining.sign, count := 0 }
  else some { w with count := w.count + 1 }

/-- R12, R30: a pending step is told of the whole second an advance reached. -/
def PendingStep.told (x : PendingStep) (old new : Civil) (amount : Nat) : PendingStep :=
  if old.crossesSecond amount then { x with reached := some new.wholeSecond } else x

/-- R10, R13: the next advance would carry civil time to the calendar end. -/
def State.reachesCalendarEnd (s : State) : Bool :=
  match s.civil with
  | none => false
  | some c => 2199 < (c.advance (advanceAmount s.slew)).year

/-- R34: the next advance is an adjusted one of a running slew. -/
def State.adjustsNext (s : State) : Bool :=
  match s.civil, s.slew with
  | some _, some w => w.adjusts
  | _, _ => false

/-- R1, R10, R12, R13, R34, R35, R37: what one run-time advance makes of the two scales of time. -/
def State.advanceTime (s : State) : State :=
  let t := s.tick
  match s.civil with
  | none => t
  | some c =>
    let amount := advanceAmount s.slew
    let new := c.advance amount
    if 2199 < new.year then t.invalidate .calendarEnd none
    else
      let slew := s.slew.bind Slew.counted
      let u := t.setCivilTime (some new) slew (s.step.map (fun x => x.told c new amount))
      if s.slew.isSome && slew.isNone then u.broadcast (u.timeChange .slewDone .request none none) else u

/-- R11, R69, R98: the due lists whose head's instant was reached between `s` and `t`. -/
def reachedHeads (s t : State) : Reached :=
  { mono := t.mono.head?.any (fun x => s.runTime < x.due && x.due ≤ t.runTime)
    civil := t.civils.head?.any (fun x =>
      s.civil.any (fun c => c.count < x.next.count) && t.civil.any (fun c => x.next.count ≤ c.count)) }

/-- R1: one run-time advance. -/
def State.takeAdvance (s : State) : State :=
  let t := s.advanceTime
  t.setReached (reachedHeads s t)

/-- RUN_TIME_ADVANCE (R1, R10): every advance, be it plain, adjusted or the one that takes the calendar end
(notes/assumptions/9). -/
def execRunTimeAdvance (s : State) : Host.Outcome State Fault Refusal :=
  whenReleased s (fun s => if s.settled then s.takeAdvance else s)

/-- ADJUSTED_ADVANCE (R34, R35): the advance at which the slew count reaches K. -/
def execAdjustedAdvance (s : State) : Host.Outcome State Fault Refusal :=
  whenReleased s (fun s => if s.settled && s.adjustsNext then s.takeAdvance else s)

/-- CALENDAR_END (R13, R37): the advance by which civil time would reach 2200-01-01 00:00:00. -/
def execCalendarEnd (s : State) : Host.Outcome State Fault Refusal :=
  whenReleased s (fun s => if s.settled && s.reachesCalendarEnd then s.takeAdvance else s)

/-- R30: the pending step applied at boundary `b`, civil time then holding `held`. -/
def State.applyPending (s : State) (x : PendingStep) (b held : Civil) : State :=
  s.moveCivil held (Civil.ofCount (b.shifted x.offset).toNat) none .stepped x.requester x.offset

/-- SECOND_BOUNDARY (R12, R30): the boundary event of the last advance; without a step pending at it, no effect
(notes/assumptions/11). -/
def execSecondBoundary (s : State) : Host.Outcome State Fault Refusal :=
  whenReleased s (fun s =>
    match s.civil, s.step with
    | some held, some x =>
      match x.reached with
      | some b => s.applyPending x b held
      | none => s
    | _, _ => s)

/-- R15: the lease remaining in whole milliseconds, rounded up. -/
def leaseRemaining (now expiry : Nat) : Nat := (expiry - now + 999) / Config.microsPerMilli

/-- R15, Table 1-6, Table 10-11: the snapshot. -/
def State.snapshot (s : State) : List Byte :=
  toBytes 8 s.runTime ++ [flagByte [s.civil.isSome, s.step.isSome]] ++ civilBytes s.civil ++
  (match s.slew with
   | some w => signedBytes 4 w.remaining ++ toBytes 2 w.rate
   | none => signedBytes 4 0 ++ toBytes 2 0) ++
  (match s.step with
   | some x => signedBytes 8 x.offset ++ [1]
   | none => []) ++
  (match s.lease with
   | some l => portByte (some l.holder) :: toBytes 4 (leaseRemaining s.runTime l.expiry)
   | none => portByte none :: toBytes 4 0)

/-- READ_TIME (R15). -/
def execReadTime (p : Port) (s : State) : Host.Outcome State Fault Refusal :=
  whenReleased s (fun s => s.serve p 0x01 (withLength 0 (fun _ t => (t, Reply.okWith t.snapshot))))

end Sys2Proof.Machine
end

