-- ==== Sys2Proof/Machine/Authority.lean ====
section
/-! DEFINITION. The Authority Unit and the requests that change civil time (02).
-/

namespace Sys2Proof.Machine

/-- R22, R40: the records that the end of the authority offers to a port: FREE to a waiter, then STEP_CANCELLED when
a step was pending. -/
def State.authorityEndRecords (s : State) (q : Port) : List Record :=
  (if s.waiters[q] then [.authority { reason := .free, runTime := s.runTime }] else []) ++
  s.stepCancelled s.step .request

/-- R22: the holder becomes NONE, the waiter set is emptied and a pending step is discarded. -/
def State.dropAuthority (s : State) : State :=
  (s.setAuthority none (Vector.replicate 4 false)).setCivilTime s.civil s.slew none

/-- R21, R22: the authority ends; EXPIRED goes to the port named, before the other records of the end. -/
def State.endAuthority (s : State) (expiredTo : Option Port) : State :=
  s.dropAuthority.offerEach (fun q =>
    (if expiredTo = some q then [.authority { reason := .expired, runTime := s.runTime }] else []) ++
    s.authorityEndRecords q)

/-- R19: a claim with a lease of `ms` in range. -/
def State.claimAuthority (s : State) (p : Port) (ms : Nat) : State × Reply :=
  let granted : Option Lease := some { holder := p, expiry := endInstant s.runTime (ms * Config.microsPerMilli) }
  match s.lease with
  | none => (s.setAuthority granted s.waiters, Reply.plain .ok)
  | some l =>
    if l.holder = p then (s.setAuthority granted s.waiters, Reply.plain .ok)
    else (s.setAuthority s.lease (s.waiters.set p true),
          { status := .held, results := [portByte (some l.holder)], resets := false })

/-- CLAIM_AUTHORITY (R19). -/
def execClaimAuthority (p : Port) (s : State) : Host.Outcome State Fault Refusal :=
  whenReleased s (fun s => s.serve p 0x02 (withLength 4 (fun args t =>
    let ms := fieldAt args 0 4
    if 100 ≤ ms ∧ ms ≤ 600000 then t.claimAuthority p ms else refuse t .range)))

/-- RELEASE_AUTHORITY (R20). -/
def execReleaseAuthority (p : Port) (s : State) : Host.Outcome State Fault Refusal :=
  whenReleased s (fun s => s.serve p 0x03 (withLength 0 (fun _ t =>
    if t.holds p then (t.endAuthority none, Reply.plain .ok) else refuse t .notHolder)))

/-- LEASE_EXPIRY (R21): taken when run time has come to the lease expiry instant. -/
def execLeaseExpiry (s : State) : Host.Outcome State Fault Refusal :=
  whenReleased s (fun s =>
    match s.lease with
    | none => s
    | some l => if l.expiry ≤ s.runTime then s.endAuthority (some l.holder) else s)

/-- R25: the checks common to the civil-change requests: the length, then the requester is the holder. -/
def civilChange (p : Port) (n : Nat) (run : List Byte → State → State × Reply) : List Byte → State → State × Reply :=
  withLength n (fun args t => if t.holds p then run args t else refuse t .notHolder)

/-- R26, R27: SET_CIVIL with a well-formed record. -/
def State.setCivil (s : State) (p : Port) (new : Civil) : State :=
  match s.civil with
  | none =>
    let t := (s.setCivilTime (some new) none none).wakePatterns new
    t.broadcast (t.timeChange .set .request (some p) (some 0))
  | some old => s.moveCivil old new s.step .set p ((new.count : Int) - (old.count : Int))

/-- SET_CIVIL (R26, R27). -/
def execSetCivil (p : Port) (s : State) : Host.Outcome State Fault Refusal :=
  whenReleased s (fun s => s.serve p 0x04 (civilChange p 12 (fun args t =>
    match decodeCivil args with
    | none => refuse t .range
    | some new => (t.setCivil p new, Reply.plain .ok))))

/-- R28, R29: an IMMEDIATE step. -/
def State.stepNow (s : State) (p : Port) (old : Civil) (offset : Int) : State × Reply :=
  if inCivilRange (old.shifted offset) then
    (s.moveCivil old (Civil.ofCount (old.shifted offset).toNat) none .stepped p offset, Reply.plain .ok)
  else refuse s .range

/-- R28, R30: an AT_SECOND step. -/
def State.stepAtSecond (s : State) (p : Port) (old : Civil) (offset : Int) : State × Reply :=
  if old.targetBoundary.year ≤ 2199 && inCivilRange (old.targetBoundary.shifted offset) then
    (s.setCivilTime s.civil s.slew (some { offset := offset, requester := p, reached := none }),
     Reply.plain .accepted)
  else refuse s .range

/-- R28: the checks of STEP_CIVIL in order: mode, civil validity, no pending step, the result's range. -/
def State.stepCivil (s : State) (p : Port) (offset : Int) (mode : Byte) : State × Reply :=
  if 1 < mode.toNat then refuse s .range
  else
    match s.civil, s.step with
    | none, _ => refuse s .civilUnset
    | some _, some _ => refuse s .stepPending
    | some old, none => if mode = 0 then s.stepNow p old offset else s.stepAtSecond p old offset

/-- STEP_CIVIL (R28 to R30). -/
def execStepCivil (p : Port) (s : State) : Host.Outcome State Fault Refusal :=
  whenReleased s (fun s => s.serve p 0x05 (civilChange p 9 (fun args t =>
    t.stepCivil p (signedAt args 0 8) (byteAt args 8))))

/-- R31: the pending step is discarded with STEP_CANCELLED. -/
def State.cancelStep (s : State) : State :=
  let t := s.setCivilTime s.civil s.slew none
  t.offerEach (fun _ => t.stepCancelled s.step .request)

/-- CANCEL_STEP (R31). -/
def execCancelStep (p : Port) (s : State) : Host.Outcome State Fault Refusal :=
  whenReleased s (fun s => s.serve p 0x06 (civilChange p 0 (fun _ t =>
    match t.step with
    | none => refuse t .wrongState
    | some _ => (t.cancelStep, Reply.plain .ok))))

/-- R33: the interval K. -/
def slewInterval (rate : Nat) : Nat := 1000000 / rate

/-- R33: the remaining offset that a new slew discards. -/
def discardedRemainder : Option Slew → Int
  | some w => w.remaining
  | none => 0

/-- R33: the checks and the start of a slew. -/
def State.slewCivil (s : State) (p : Port) (offset : Int) (rate : Nat) : State × Reply :=
  if 1 ≤ offset.natAbs ∧ offset.natAbs ≤ 10000000 ∧ 1 ≤ rate ∧ rate ≤ 500 then
    match s.civil with
    | none => refuse s .civilUnset
    | some _ =>
      (s.setCivilTime s.civil
        (some { remaining := offset, rate := rate, interval := slewInterval rate, count := 0, requester := p }) s.step,
       Reply.okWith (signedBytes 4 (discardedRemainder s.slew)))
  else refuse s .range

/-- SLEW_CIVIL (R33). -/
def execSlewCivil (p : Port) (s : State) : Host.Outcome State Fault Refusal :=
  whenReleased s (fun s => s.serve p 0x07 (civilChange p 6 (fun args t =>
    t.slewCivil p (signedAt args 0 4) (fieldAt args 4 2))))

/-- INVALIDATE_CIVIL (R36). -/
def execInvalidateCivil (p : Port) (s : State) : Host.Outcome State Fault Refusal :=
  whenReleased s (fun s => s.serve p 0x08 (civilChange p 0 (fun _ t =>
    match t.civil with
    | none => refuse t .civilUnset
    | some _ => (t.invalidate .request (some p), Reply.plain .ok))))

end Sys2Proof.Machine
end

