-- ==== Sys2Proof/Machine/Schedule.lean ====
section
/-! DEFINITION. The Schedule Table's requests (03) and the firings of the two due lists (04, 05).
-/

namespace Sys2Proof.Machine

/-- R50 steps 3 and 7 for PATTERN; steps 4 to 6 for every kind: the first check that fails. -/
def State.createCheck (s : State) (p : Port) (a : CreateArgs) : Option Status :=
  let lineOk := match a.action with
    | some x => s.ownsLine p x.line
    | none => true
  match a.timing with
  | .once _ => if !lineOk then some .lineNotOwned else if !s.quotaOk p then some .quotaExceeded else none
  | .periodic _ _ _ _ => if !lineOk then some .lineNotOwned else if !s.quotaOk p then some .quotaExceeded else none
  | .pattern pat _ _ _ =>
    if pat.impossible then some .neverMatches
    else if !lineOk then some .lineNotOwned
    else if !s.quotaOk p then some .quotaExceeded
    else match s.civil with
      | some c => if (pat.atOrAfter c).isNone then some .neverMatches else none
      | none => none
  | .afterCapture i _ _ _ =>
    if !lineOk then some .lineNotOwned
    else if !s.ownsInput p i then some .inputNotOwned
    else if !s.quotaOk p then some .quotaExceeded else none

/-- R52 to R55: the new entry takes the state of its kind. -/
def State.enter (s : State) (id : EntryId) (e : Entry) : State :=
  match e.timing with
  | .once due => s.armMono id e due (due < s.runTime)
  | .periodic due _ _ _ => s.armMono id e due (due < s.runTime)
  | .pattern pat _ _ _ =>
    match s.civil with
    | some c => s.placeAt id e (pat.atOrAfter c)
    | none => s.park id e .dormant
  | .afterCapture _ _ _ _ => s.park id e .waiting

/-- R43: the record that a creation fills from its arguments. -/
def CreateArgs.entry (a : CreateArgs) (p : Port) : Entry :=
  { owner := p, state := .suspended, timing := a.timing, remaining := a.remaining, action := a.action,
    notify := a.notify, tag := a.tag }

/-- R43, R50: the creation after step 2.  A table without a FREE slot, which the quota excludes (R49), is answered
as a quota used up (notes/assumptions/22). -/
def State.create (s : State) (p : Port) (a : CreateArgs) : State × Reply :=
  match s.createCheck p a, s.lowestFree with
  | some st, _ => refuse s st
  | none, none => refuse s .quotaExceeded
  | none, some id =>
    let t := (s.allocate id (a.entry p)).enter id (a.entry p)
    (t, Reply.okWith (t.handleOf id).bytes)

/-- CREATE_ENTRY (R50 to R56). -/
def execCreateEntry (p : Port) (s : State) : Host.Outcome State Fault Refusal :=
  whenReleased s (fun s => s.serve p 0x10 (fun args t =>
    match decodeCreate args with
    | .error st => refuse t st
    | .ok a => t.create p a))

/-- R44: the checks common to the requests that carry an entry handle. -/
def withEntry (p : Port) (run : EntryId → Entry → State → State × Reply) : List Byte → State → State × Reply :=
  withLength 2 (fun args t =>
    match decodeId (byteAt args 0) with
    | none => refuse t .range
    | some id =>
      match (t.slot id).entry with
      | none => refuse t .noEntry
      | some e =>
        if (t.slot id).gen ≠ byteAt args 1 then refuse t .noEntry
        else if e.owner ≠ p then refuse t .notOwner
        else run id e t)

/-- QUERY_ENTRY (R57). -/
def execQueryEntry (p : Port) (s : State) : Host.Outcome State Fault Refusal :=
  whenReleased s (fun s => s.serve p 0x11 (withEntry p (fun id e t =>
    (t, Reply.okWith (e.bytes (t.handleOf id))))))

/-- R58: the ids of the entries a port holds, ascending. -/
def State.entriesOf (s : State) (p : Port) : List EntryId :=
  allIds.filter (fun i => (s.slot i).entry.any (fun e => e.owner == p))

/-- R58: one listed entry: handle, kind, state. -/
def State.listed (s : State) (i : EntryId) : List Byte :=
  match (s.slot i).entry with
  | some e => (s.handleOf i).bytes ++ [e.timing.kindCode, e.state.code]
  | none => []

/-- LIST_ENTRIES (R58). -/
def execListEntries (p : Port) (s : State) : Host.Outcome State Fault Refusal :=
  whenReleased s (fun s => s.serve p 0x12 (withLength 0 (fun _ t =>
    (t, Reply.okWith (toBytes 1 (t.entriesOf p).length ++ (t.entriesOf p).flatMap t.listed)))))

/-- CANCEL_ENTRY (R59). -/
def execCancelEntry (p : Port) (s : State) : Host.Outcome State Fault Refusal :=
  whenReleased s (fun s => s.serve p 0x13 (withEntry p (fun id _ t => (t.freeEntry id, Reply.plain .ok))))

/-- SUSPEND_ENTRY (R60). -/
def execSuspendEntry (p : Port) (s : State) : Host.Outcome State Fault Refusal :=
  whenReleased s (fun s => s.serve p 0x14 (withEntry p (fun id e t =>
    if e.state = .suspended then refuse t .wrongState else (t.park id e .suspended, Reply.plain .ok))))

/-- R61, R62: a SUSPENDED entry resumed by kind. -/
def State.resume (s : State) (id : EntryId) (e : Entry) : State × Reply :=
  match e.timing with
  | .once due => (s.armMono id e due (due < s.runTime), Reply.plain .ok)
  | .periodic due _ _ _ => (s.armMono id e due (due < s.runTime), Reply.plain .ok)
  | .pattern pat _ _ _ =>
    match s.civil with
    | some c => (s.placeAt id e (pat.atOrAfter c), Reply.plain .ok)
    | none => (s.park id e .dormant, Reply.plain .ok)
  | .afterCapture input _ _ _ =>
    if s.ownsInput e.owner input then (s.park id e .waiting, Reply.plain .ok) else refuse s .inputNotOwned

/-- RESUME_ENTRY (R61, R62). -/
def execResumeEntry (p : Port) (s : State) : Host.Outcome State Fault Refusal :=
  whenReleased s (fun s => s.serve p 0x15 (withEntry p (fun id e t =>
    if e.state = .suspended then t.resume id e else refuse t .wrongState)))

/-- MONO_FIRING (R69, R71): the head of the MONO due list fires while its due is at or before now. -/
def execMonoFiring (s : State) : Host.Outcome State Fault Refusal :=
  whenReleased s (fun s =>
    match s.mono with
    | [] => s
    | pos :: _ =>
      if pos.due ≤ s.runTime then (s.setReached { s.reached with mono := false }).fireMono pos else s)

/-- CIVIL_FIRING (R98, R99): the head of the CIVIL due list fires while its next match is at or before the civil time
held. -/
def execCivilFiring (s : State) : Host.Outcome State Fault Refusal :=
  whenReleased s (fun s =>
    match s.civils, s.civil with
    | pos :: _, some c =>
      if pos.next.count ≤ c.count then (s.setReached { s.reached with civil := false }).fireCivil pos else s
    | _, _ => s)

end Sys2Proof.Machine
end

