-- ==== Sys2Proof/Machine/TriggerLines.lean ====
section
/-! DEFINITION. The requests and events of Line Control (06).
-/

namespace Sys2Proof.Machine

/-- R114: CLAIM_LINE with its arguments in range. -/
def State.claimLine (s : State) (p : Port) (l : Line) (idle : Level) : State × Reply :=
  let granted : LineState := { claim := some { owner := p, idle := idle }, level := idle, pulse := none }
  match (s.line l).claim with
  | none => (s.setLine l granted, Reply.plain .ok)
  | some c =>
    if c.owner = p then (s.setLine l granted, Reply.plain .ok)
    else (s, { status := .held, results := [portByte (some c.owner)], resets := false })

/-- CLAIM_LINE (R113, R114). -/
def execClaimLine (p : Port) (s : State) : Host.Outcome State Fault Refusal :=
  whenReleased s (fun s => s.serve p 0x20 (withLength 2 (fun args t =>
    match decodeLine (byteAt args 0), decodeLevel (byteAt args 1) with
    | some l, some idle => t.claimLine p l idle
    | _, _ => refuse t .range)))

/-- RELEASE_LINE (R113, R115): the line becomes unowned, LOW, with no pending pulse end. -/
def execReleaseLine (p : Port) (s : State) : Host.Outcome State Fault Refusal :=
  whenReleased s (fun s => s.serve p 0x21 (withLength 1 (fun args t =>
    match decodeLine (byteAt args 0) with
    | some l => if t.ownsLine p l then (t.setLine l LineState.reset, Reply.plain .ok) else refuse t .notOwner
    | none => refuse t .range)))

/-- R120: a direct drive of an owned line, with source DIRECT. -/
def State.driveLine (s : State) (p : Port) (a : LineAction) : State × Reply :=
  if s.ownsLine p a.line then
    let r := s.askLine (some a) p .direct
    (r.1, Reply.okWith (levelCode (r.1.line a.line).level :: sourceBytes r.2.overtaken))
  else refuse s .notOwner

/-- DRIVE_LINE (R113, R120). -/
def execDriveLine (p : Port) (s : State) : Host.Outcome State Fault Refusal :=
  whenReleased s (fun s => s.serve p 0x22 (withLength 6 (fun args t =>
    match decodeLineAction args 0 with
    | some a => t.driveLine p a
    | none => refuse t .range)))

/-- PULSE_END (R119): taken when run time has come to the pending end; the line returns to its idle level.  At the instant of a
firing it may be taken before or after it (R124), also where the pulse is the firing entry's own, which R79 says the firing
overtakes (model's choice, notes/assumptions/32). -/
def execPulseEnd (l : Line) (s : State) : Host.Outcome State Fault Refusal :=
  whenReleased s (fun s =>
    match (s.line l).claim, (s.line l).pulse with
    | some c, some x =>
      if x.endAt ≤ s.runTime then s.setLine l { claim := some c, level := c.idle, pulse := none } else s
    | _, _ => s)

end Sys2Proof.Machine
end

