-- ==== Sys2Proof/Machine/CaptureInputs.lean ====
section
/-! DEFINITION. The requests and events of the Capture Unit (07).
-/

namespace Sys2Proof.Machine

/-- An input's claim replaced, its seen level left. -/
def State.setClaim (s : State) (i : Input) (c : Option InputClaim) : State :=
  s.setInput i { claim := c, seen := (s.input i).seen }

/-- Tables 10-5, 10-11: the input's state and suppressed count. -/
def InputClaim.bytes (c : InputClaim) : List Byte :=
  boolByte c.holdoffEnd.isSome :: toBytes 2 c.suppressed

/-- R132: CLAIM_INPUT with its arguments in range. -/
def State.claimInput (s : State) (p : Port) (i : Input) (mode : EdgeMode) (holdoff : Nat) : State × Reply :=
  match (s.input i).claim with
  | none =>
    let c : InputClaim := { owner := p, mode := mode, holdoff := holdoff, holdoffEnd := none, suppressed := 0 }
    (s.setClaim i (some c), Reply.okWith c.bytes)
  | some old =>
    if old.owner = p then
      let c : InputClaim := { old with mode := mode, holdoff := holdoff }
      (s.setClaim i (some c), Reply.okWith c.bytes)
    else (s, { status := .held, results := [portByte (some old.owner)], resets := false })

/-- CLAIM_INPUT (R131, R132). -/
def execClaimInput (p : Port) (s : State) : Host.Outcome State Fault Refusal :=
  whenReleased s (fun s => s.serve p 0x28 (withLength 4 (fun args t =>
    match decodeInput (byteAt args 0), decodeEdgeMode (byteAt args 1) with
    | some i, some mode => t.claimInput p i mode (fieldAt args 2 2)
    | _, _ => refuse t .range)))

/-- An AFTER_CAPTURE entry of port `p` on input `i`. -/
def Entry.waitsOn (e : Entry) (p : Port) (i : Input) : Bool :=
  e.owner == p && match e.timing with
    | .afterCapture j _ _ _ => j == i
    | .once _ => false
    | .periodic _ _ _ _ => false
    | .pattern _ _ _ _ => false

/-- R133: the owner's WAITING and SUSPENDED entries on the input, in ascending id order. -/
def State.lostAtRelease (s : State) (p : Port) (i : Input) : List EntryId :=
  allIds.filter (fun id => (s.slot id).entry.any (fun e =>
    e.waitsOn p i && (e.state == .waiting || e.state == .suspended)))

/-- R133: the release of an input by its owner; the number of entries it ended is answered. -/
def State.releaseInput (s : State) (p : Port) (i : Input) : State × Reply :=
  let ids := s.lostAtRelease p i
  let t := ids.foldl (fun t id => t.endEntry id .captureLost) s
  (t.setClaim i none, Reply.okWith (toBytes 1 ids.length))

/-- RELEASE_INPUT (R131, R133). -/
def execReleaseInput (p : Port) (s : State) : Host.Outcome State Fault Refusal :=
  whenReleased s (fun s => s.serve p 0x29 (withLength 1 (fun args t =>
    match decodeInput (byteAt args 0) with
    | some i => if t.ownsInput p i then t.releaseInput p i else refuse t .notOwner
    | none => refuse t .range)))

/-- R137: the owner's WAITING entries on the input, in ascending id order. -/
def State.waitingOn (s : State) (p : Port) (i : Input) : List EntryId :=
  allIds.filter (fun id => (s.slot id).entry.any (fun e => e.waitsOn p i && e.state == .waiting))

/-- R137: one waiting entry armed by an edge, due at the stamp plus its delay. -/
def State.armByEdge (s : State) (id : EntryId) : State :=
  match (s.slot id).entry with
  | none => s
  | some e =>
    match e.timing with
    | .afterCapture _ delay _ _ => s.armMono id e (endInstant s.runTime delay) false
    | .once _ => s
    | .periodic _ _ _ _ => s
    | .pattern _ _ _ _ => s

/-- R138: the HOLDOFF an accepted edge starts. -/
def InputClaim.afterEdge (c : InputClaim) (now : Nat) : InputClaim :=
  { c with suppressed := 0, holdoffEnd := if c.holdoff = 0 then none else some (endInstant now c.holdoff) }

/-- R136 to R138: a matching edge taken in ACCEPTING. -/
def State.acceptEdge (s : State) (i : Input) (c : InputClaim) (pol : Polarity) : State :=
  let ids := s.waitingOn c.owner i
  let r : CaptureRecord :=
    { input := i, polarity := pol, runStamp := s.runTime, civilStamp := s.civil, suppressed := c.suppressed,
      armed := ids.length }
  (ids.foldl State.armByEdge (s.offer c.owner (.capture r))).setClaim i (some (c.afterEdge s.runTime))

/-- R135: an edge handled by the input's owner, edge mode and state. -/
def State.takeEdge (s : State) (i : Input) (pol : Polarity) : State :=
  match (s.input i).claim with
  | none => s
  | some c =>
    if c.mode.accepts pol then
      match c.holdoffEnd with
      | none => s.acceptEdge i c pol
      | some _ => s.setClaim i (some { c with suppressed := saturate 65535 (c.suppressed + 1) })
    else s

/-- CAPTURE_EDGE (R130, R135): a change of the seen level is one edge; a level equal to it is none. -/
def execCaptureEdge (i : Input) (level : Level) (s : State) : Host.Outcome State Fault Refusal :=
  whenReleased s (fun s =>
    match (s.input i).seen with
    | none => s.setInput i { s.input i with seen := some level }
    | some old =>
      if old = level then s
      else (s.setInput i { s.input i with seen := some level }).takeEdge i (polarityTo level))

/-- HOLDOFF_EXPIRY (R139): taken when run time has come to the holdoff end. -/
def execHoldoffExpiry (i : Input) (s : State) : Host.Outcome State Fault Refusal :=
  whenReleased s (fun s =>
    match (s.input i).claim with
    | none => s
    | some c =>
      match c.holdoffEnd with
      | none => s
      | some t => if t ≤ s.runTime then s.setClaim i (some { c with holdoffEnd := none }) else s)

end Sys2Proof.Machine
end

