-- ==== Sys2Proof/Machine/Resets.lean ====
section
/-! DEFINITION. Port reset as one shared operation over every block it reaches (R191 and each chapter's rule), and the
device reset and its release (R193, R178).
-/

namespace Sys2Proof.Machine

/-- R65: every entry of the port is freed. -/
def State.freeEntriesOf (s : State) (p : Port) : State := (s.entriesOf p).foldl State.freeEntry s

/-- The eight lines and the four inputs. -/
def allLines : List Line := List.finRange 8

def allInputs : List Input := List.finRange 4

/-- R127: every line of the port is released. -/
def State.releaseLinesOf (s : State) (p : Port) : State :=
  allLines.foldl (fun t l => if t.ownsLine p l then t.setLine l LineState.reset else t) s

/-- R143: every input of the port is released, its seen level kept. -/
def State.releaseInputsOf (s : State) (p : Port) : State :=
  allInputs.foldl (fun t i => if t.ownsInput p i then t.setClaim i none else t) s

/-- R23: the Authority Unit at a port reset. -/
def State.authorityReset (s : State) (p : Port) : State :=
  if s.holds p then s.dropAuthority else s.setAuthority s.lease (s.waiters.set p false)

/-- R158: the PEER_RESET record of a reset of port `p`, counted on the state before it. -/
def State.peerResetRecord (s : State) (p : Port) : Record :=
  .peerReset { port := p, entries := (s.entriesOf p).length,
               lines := (allLines.filter (fun l => s.ownsLine p l)).length,
               inputs := (allInputs.filter (fun i => s.ownsInput p i)).length, runTime := s.runTime }

/-- R23: the records of the authority's end by the reset of port `p`, as offered to another port. -/
def State.authorityResetRecords (s : State) (p q : Port) : List Record :=
  if s.holds p then s.authorityEndRecords q else []

/-- R23, R158: what a port reset offers to port `q`; the order of the two kinds is open (notes/assumptions/5). -/
def State.resetRecords (s : State) (p q : Port) : List Record :=
  if q = p then []
  else
    let authority := s.authorityResetRecords p q
    if authority.isEmpty then [s.peerResetRecord p]
    else if Config.peerResetFirst s.freeCount q then s.peerResetRecord p :: authority
    else authority ++ [s.peerResetRecord p]

/-- R159: the queue of the reset port. -/
def NoteQueue.afterPortReset (q : NoteQueue) : NoteQueue := { NoteQueue.reset with epoch := q.epoch + 1 }

/-- R173, R180, R184, R191: the link of the reset port; after a break the receiver waits for mark and a frame on the line is
cut, otherwise it hunts and the frame is finished.  The receive line itself is as it was: a reset by another cause leaves
the character under way and the space level that a break is counted from. -/
def Link.afterPortReset (l : Link) (brk : Bool) : Link :=
  { Link.reset with
    rx := if brk then .waitMark else .hunt
    spaceSince := if brk then none else l.spaceSince
    arriving := if brk then none else l.arriving
    acks := l.acks
    tx := l.tx.map (if brk then TxFrame.cutShort else TxFrame.disown) }

/-- R159, R174, R191: what the T4 holds for the reset port itself. -/
def PortState.afterPortReset (ps : PortState) (brk : Bool) : PortState :=
  { queue := ps.queue.afterPortReset, engine := Engine.reset, link := ps.link.afterPortReset brk }

/-- R191: a port reset takes effect at port `p`. -/
def State.resetPort (s : State) (p : Port) (brk : Bool) : State :=
  let t := (((s.freeEntriesOf p).releaseLinesOf p).releaseInputsOf p).authorityReset p
  let u := t.setPort p ((t.port p).afterPortReset brk)
  State.offerEach { u with freeCount := s.freeCount + 1 } (s.resetRecords p)

/-- DEVICE_RESET (R17, R18, R42, R66, R96, R128, R144, R145, R162, R193): every block takes its device-reset state
and RST_N is low. -/
def execDeviceReset (s : State) : Host.Outcome State Fault Refusal :=
  .next { State.reset with freeCount := s.freeCount, pending := s.pending }

/-- RESET_RELEASE (R1, R130, R178): RST_N goes high, the straps are sampled and the first level seen on each capture
pin becomes its seen level without an edge (notes/assumptions/20). -/
def execResetRelease (rate1 rate0 : Bool) (cap0 cap1 cap2 cap3 : Level) (s : State) :
    Host.Outcome State Fault Refusal :=
  .next
    (if s.rstN then s
     else
      { ((((s.setInput 0 { s.input 0 with seen := some cap0 }).setInput 1 { s.input 1 with seen := some cap1 }).setInput
            2 { s.input 2 with seen := some cap2 }).setInput 3 { s.input 3 with seen := some cap3 }) with
        rstN := true, rate1 := rate1, rate0 := rate0 })

end Sys2Proof.Machine
end

