-- ==== Sys2Proof/Machine/Delivery.lean ====
section
/-! DEFINITION. The Delivery Engine's events, SET_PORT_CONFIG, and the transmit arbiter (09).
-/

namespace Sys2Proof.Machine

/-- R164, R172: the frame the arbiter starts when the line is free: the oldest pending response, otherwise the NOTE
frame of the head in the port's epoch. -/
def PortState.startFrame (ps : PortState) : PortState :=
  match ps.link.tx, ps.link.responses with
  | some _, _ => ps
  | none, r :: rest =>
    { ps with link := { ps.link with responses := rest, tx := some (.response (responseFrame r.payload) r.resets) } }
  | none, [] =>
    match ps.engine.frame, ps.queue.records with
    | .queued, q :: _ =>
      { ps with engine := { ps.engine with frame := .onWire }
                link := { ps.link with tx := some (.note (noteFrame ps.queue.epoch q) true) } }
    | .queued, [] => ps
    | .onWire, _ => ps
    | .absent, _ => ps

/-- TRANSMIT_START (R172).  A frame held on a free line waits for this command, and advances may be taken meanwhile (model's
choice, notes/assumptions/30). -/
def execTransmitStart (p : Port) (s : State) : Host.Outcome State Fault Refusal :=
  whenReleased s (fun s => s.setPort p (s.port p).startFrame)

/-- R164: the end of the transmission of the engine's own frame; in AWAIT_ACK and in BACKOFF the ack timer starts. -/
def Engine.sent (e : Engine) (now : Nat) : Engine :=
  if e.state = .awaitAck ∨ e.state = .backoff then
    { e with state := .awaitAck, frame := .absent
             ackEnd := some (endInstant now (e.config.ackTimeout * Config.microsPerMilli)) }
  else { e with frame := .absent }

/-- R164: the last character of a NOTE frame has been sent; of one that a break cut, the character it ended with
(R173, R174: no timer starts). -/
def PortState.noteEnded (ps : PortState) (now : Nat) : PortState :=
  match ps.link.tx with
  | some (.note _ live) =>
    { ps with link := { ps.link with tx := none }, engine := if live then ps.engine.sent now else ps.engine }
  | some (.cut _ true) => { ps with link := { ps.link with tx := none } }
  | some (.cut _ false) => ps
  | some (.response _ _) => ps
  | none => ps

/-- NOTE_TRANSMISSION_END (R164). -/
def execNoteTransmissionEnd (p : Port) (s : State) : Host.Outcome State Fault Refusal :=
  whenReleased s (fun s => s.setPort p ((s.port p).noteEnded s.runTime))

/-- RESPONSE_TRANSMISSION_END (R172, R190, R192): the line is free again; a PORT_RESET takes effect at the end of its
response, unless a break has cut it (R173, R192). -/
def execResponseTransmissionEnd (p : Port) (s : State) : Host.Outcome State Fault Refusal :=
  whenReleased s (fun s =>
    match (s.link p).tx with
    | some (.response _ resets) =>
      let t := s.setLink p { s.link p with tx := none }
      if resets then t.resetPort p false else t
    | some (.cut _ false) => s.setLink p { s.link p with tx := none }
    | some (.cut _ true) => s
    | some (.note _ _) => s
    | none => s)

/-- R165: an ACK payload names the current epoch and the head's sequence number. -/
def PortState.ackMatches (ps : PortState) (payload : List Byte) : Bool :=
  ps.engine.state != .idle &&
  match ps.queue.records with
  | q :: _ => payload == ps.queue.epoch :: toBytes 2 q.seq.toNat
  | [] => false

/-- R165: the engine after an accepted ACK; `more` tells whether the queue still holds a record. -/
def Engine.acked (e : Engine) (more : Bool) : Engine :=
  { e with state := if more then .awaitAck else .idle, stalledAt := none, attempts := 0
           frame := if more then .queued else .absent, ackEnd := none, backoffEnd := none, delivered := e.delivered + 1 }

/-- R154, R165: a matching ACK is accepted. -/
def PortState.acceptAck (ps : PortState) : PortState :=
  { queue := { ps.queue with records := ps.queue.records.drop 1 }
    engine := ps.engine.acked (!(ps.queue.records.drop 1).isEmpty)
    link := { ps.link with tx := ps.link.tx.map TxFrame.disownNote } }

/-- R166, R169, R175: the engine at a stale ACK: it is counted, and a STALLED engine resumes, but one stalled by an ack
timeout of this same instant does not: met with that timeout a stale ACK changes nothing in either order, which R166 and
R169 do not except (model's choice, notes/assumptions/28). -/
def Engine.staleAck (e : Engine) (now : Nat) : Engine :=
  let counted := { e with staleAcks := e.staleAcks + 1 }
  if e.stalledAt = some now then counted else counted.resume

/-- R166: an ACK that does not match. -/
def PortState.refuseAck (ps : PortState) (now : Nat) : PortState := { ps with engine := ps.engine.staleAck now }

/-- ACK_FRAME (R165, R166): the engine takes the oldest ACK frame handed to it, whatever run time has passed and whatever
frames of the port have been taken since that frame was accepted (model's choice, notes/assumptions/30). -/
def execAckFrame (p : Port) (s : State) : Host.Outcome State Fault Refusal :=
  whenReleased s (fun s =>
    match (s.link p).acks with
    | [] => s
    | payload :: rest =>
      let t := s.setLink p { s.link p with acks := rest }
      t.setPort p (if (t.port p).ackMatches payload then (t.port p).acceptAck else (t.port p).refuseAck t.runTime))

/-- R167: the engine enters BACKOFF. -/
def Engine.backOff (e : Engine) (now attempts : Nat) : Engine :=
  { e with state := .backoff, attempts := attempts, ackEnd := none
           backoffEnd := some (endInstant now
             (e.config.ackTimeout * 2 ^ backoffExponent attempts e.config.backoffCap * Config.microsPerMilli)) }

/-- R167, R169, R170: the ack timer of port `p` expires. -/
def State.ackExpired (s : State) (p : Port) : State :=
  let ps := s.port p
  let e := ps.engine
  let attempts := e.attempts + 1
  if e.config.retryLimit < attempts then
    match e.config.stall with
    | .keep =>
      s.setPort p { ps with engine := { e with
        state := .stalled, stalledAt := some s.runTime, attempts := attempts, ackEnd := none } }
    | .release => s.resetPort p false
  else s.setPort p { ps with engine := e.backOff s.runTime attempts }

/-- ACK_TIMEOUT (R167): taken when run time has come to the ack timer end. -/
def execAckTimeout (p : Port) (s : State) : Host.Outcome State Fault Refusal :=
  whenReleased s (fun s =>
    match (s.port p).engine.ackEnd with
    | none => s
    | some t => if t ≤ s.runTime then s.ackExpired p else s)

/-- R168: the head is handed again. -/
def Engine.retransmit (e : Engine) : Engine :=
  { e with frame := .queued, backoffEnd := none, retransmissions := e.retransmissions + 1 }

/-- BACKOFF_EXPIRY (R168): taken when run time has come to the backoff end. -/
def execBackoffExpiry (p : Port) (s : State) : Host.Outcome State Fault Refusal :=
  whenReleased s (fun s =>
    match (s.port p).engine.backoffEnd with
    | none => s
    | some t =>
      if t ≤ s.runTime then s.setPort p { s.port p with engine := (s.port p).engine.retransmit } else s)

/-- R171: the five items replaced at once; timers that run keep their ends. -/
def PortState.configure (ps : PortState) (c : DeliveryConfig × Bool × Bool) : PortState :=
  { ps with engine := { ps.engine with config := c.1 }
            queue := { ps.queue with timeChangeOn := c.2.1, peerResetOn := c.2.2 } }

/-- SET_PORT_CONFIG (R171). -/
def execSetPortConfig (p : Port) (s : State) : Host.Outcome State Fault Refusal :=
  whenReleased s (fun s => s.serve p 0x30 (withLength 5 (fun args t =>
    match decodeConfig args with
    | some c => (t.setPort p ((t.port p).configure c), Reply.plain .ok)
    | none => refuse t .range)))

end Sys2Proof.Machine
end

