-- ==== Sys2Proof/Machine/PortLinks.lean ====
section
/-! DEFINITION. The receiver, its faults and the break, and the port requests (10).
-/

namespace Sys2Proof.Machine

/-- R183: a fault is recorded and the receiver returns to HUNT. -/
def Link.fault (l : Link) (k : FaultKind) : Link := { l with rx := .hunt, faults := l.faults.note k }

/-- R182 check 1: the CRC computed over LEN, TYPE and payload equals the CRC received. -/
def crcRight (len : Byte) (chars : List Byte) : Bool :=
  toBytes 2 (crc (len :: chars.take len.toNat)).toNat == chars.drop len.toNat

/-- R169, R182: the port after a REQUEST frame that passed the checks of CRC and TYPE: a STALLED engine resumes, and the
frame joins the FIFO if there is room. -/
def PortState.requestArrived (ps : PortState) (payload : List Byte) : PortState :=
  let link :=
    if ps.link.fifo.length < Config.fifoCapacity then
      { ps.link with rx := .hunt, fifo := ps.link.fifo ++ [payload], framesAccepted := ps.link.framesAccepted + 1 }
    else ps.link.fault .fifoFull
  { ps with engine := ps.engine.resume, link := link }

/-- R182: an ACK frame accepted and handed to the engine, where it waits for ACK_FRAME; advances and later frames of the port
may be taken meanwhile (model's choice, notes/assumptions/30). -/
def PortState.ackArrived (ps : PortState) (payload : List Byte) : PortState :=
  { ps with link := { ps.link with
      rx := .hunt, acks := ps.link.acks ++ [payload], framesAccepted := ps.link.framesAccepted + 1 } }

/-- R182: a frame whose last character has been taken: CRC, then TYPE, then room in the FIFO. -/
def PortState.checkFrame (ps : PortState) (len : Byte) (chars : List Byte) : PortState :=
  let payload := (chars.take len.toNat).drop 1
  if !crcRight len chars then { ps with link := ps.link.fault .badCrc }
  else if byteAt chars 0 = 0x01 then ps.requestArrived payload
  else if byteAt chars 0 = 0x02 then ps.ackArrived payload
  else { ps with link := ps.link.fault .badType }

/-- R181, R184: the receive line changes from mark to space, the start bit of a character; a line at space, or with a
character under way, has no such change. -/
def Link.startBit (l : Link) (now : Nat) : Link :=
  if l.rx = .waitMark ∨ l.spaceSince.isSome ∨ l.arriving.isSome then l
  else { l with spaceSince := some now, arriving := some now }

/-- R180, R181: the character under way ends at run time `now` with its stop bit at mark, and is taken. -/
def PortState.receive (ps : PortState) (b : Byte) (now : Nat) : PortState :=
  let idle := { ps.link with spaceSince := none, arriving := none }
  match ps.link.arriving, ps.link.rx with
  | none, _ => ps
  | some _, .waitMark => ps
  | some _, .hunt => { ps with link := { idle with rx := if b = Config.sync then .length now else .hunt } }
  | some _, .length _ =>
    { ps with link := if lengthOutOfRange b then idle.fault .badLength else { idle with rx := .body b [] now } }
  | some _, .body len chars _ =>
    if chars.length + 1 < len.toNat + 2 then
      { ps with link := { idle with rx := .body len (chars ++ [b]) now } }
    else PortState.checkFrame { ps with link := idle } len (chars ++ [b])

/-- R178, R181: a character whose stop bit was found at space is received and not taken: it starts a new gap. -/
def Receiver.unread (r : Receiver) (now : Nat) : Receiver :=
  match r with
  | .waitMark => .waitMark
  | .hunt => .hunt
  | .length _ => .length now
  | .body len chars _ => .body len chars now

/-- R178, R184: the instants since which the line can have been at space at the end of a character that began at `start`:
one of the character's own, and its start when every data bit was at space. -/
def spaceInstant (b : Byte) (start space now : Nat) : Bool :=
  start ≤ space && space ≤ now && (b != 0 || space == start)

/-- R178, R181, R184: the character under way ends with its stop bit at space, at which the line has been since `space`. -/
def Link.endAtSpace (l : Link) (b : Byte) (space now : Nat) : Link :=
  match l.arriving with
  | none => l
  | some start =>
    if spaceInstant b start space now then
      { l with spaceSince := some space, arriving := none, rx := l.rx.unread now }
    else l

/-- CHARACTER_RECEIVED (R178, R180, R181): every character, the bad LEN byte and the last one of a frame among them
(notes/assumptions/12). -/
def execCharacterReceived (p : Port) (b : Byte) (moment : CharMoment) (s : State) :
    Host.Outcome State Fault Refusal :=
  whenReleased s (fun s =>
    match moment with
    | .starts => s.setLink p ((s.link p).startBit s.runTime)
    | .endsAtMark => s.setPort p ((s.port p).receive b s.runTime)
    | .endsAtSpace t => s.setLink p ((s.link p).endAtSpace b t s.runTime))

/-- R182: the next character is the last one of a frame. -/
def Receiver.atLast : Receiver → Bool
  | .waitMark => false
  | .hunt => false
  | .length _ => false
  | .body len chars _ => chars.length + 1 == len.toNat + 2

/-- R180: the next character is a LEN byte. -/
def Receiver.atLength : Receiver → Bool
  | .waitMark => false
  | .hunt => false
  | .length _ => true
  | .body _ _ _ => false

/-- FRAME_COMPLETE (R182): `b` is taken as the last character of a frame. -/
def execFrameComplete (p : Port) (b : Byte) (s : State) : Host.Outcome State Fault Refusal :=
  whenReleased s (fun s =>
    if (s.link p).rx.atLast then s.setPort p ((s.port p).receive b s.runTime) else s)

/-- LENGTH_FAULT (R180): `b` is taken as a LEN byte out of range. -/
def execLengthFault (p : Port) (b : Byte) (s : State) : Host.Outcome State Fault Refusal :=
  whenReleased s (fun s =>
    if (s.link p).rx.atLength && lengthOutOfRange b then s.setPort p ((s.port p).receive b s.runTime) else s)

/-- GAP_EXPIRY (R181). -/
def execGapExpiry (p : Port) (s : State) : Host.Outcome State Fault Refusal :=
  whenReleased s (fun s =>
    if (s.link p).gapOver s.runTime then s.setLink p ((s.link p).fault .truncated) else s)

/-- BREAK (R184): a port reset of the port. -/
def execBreakSeen (p : Port) (s : State) : Host.Outcome State Fault Refusal :=
  whenReleased s (fun s => if (s.link p).spaceLong s.runTime then s.resetPort p true else s)

/-- R180, R184: the receive line seen at mark ends a space level, and takes a receiver in WAIT_MARK to HUNT. -/
def Link.atMark (l : Link) : Link :=
  { l with spaceSince := none, rx := if l.rx = .waitMark then .hunt else l.rx }

/-- RECEIVE_LINE_AT_MARK (R180). -/
def execReceiveLineAtMark (p : Port) (s : State) : Host.Outcome State Fault Refusal :=
  whenReleased s (fun s => s.setLink p (s.link p).atMark)

/-- Table 10-9: the 24 request codes. -/
def requestCodes : List Byte :=
  [0x01, 0x02, 0x03, 0x04, 0x05, 0x06, 0x07, 0x08, 0x10, 0x11, 0x12, 0x13, 0x14, 0x15, 0x20, 0x21, 0x22, 0x28, 0x29,
   0x30, 0x31, 0x32, 0x33, 0x34]

/-- UNKNOWN_REQUEST (R186 cases 1 and 2): a payload shorter than 2 bytes is answered MALFORMED with code 0x00, a code
that is not one of the 24 UNKNOWN_REQUEST. -/
def execUnknownRequest (p : Port) (s : State) : Host.Outcome State Fault Refusal :=
  whenReleased s (fun s =>
    match (s.link p).takable with
    | none => s
    | some [] => (s.takeRequest p).respond p 0x00 0x00 (Reply.plain .malformed)
    | some [tag] => (s.takeRequest p).respond p tag 0x00 (Reply.plain .malformed)
    | some (tag :: code :: _) =>
      if code ∈ requestCodes then s else (s.takeRequest p).respond p tag code (Reply.plain .unknownRequest))

/-- R188, Table 10-13: the results of GET_PORT_STATUS. -/
def PortState.statusBytes (ps : PortState) : List Byte :=
  [ps.engine.state.code] ++ toBytes 1 ps.engine.attempts ++
  toBytes 1 ps.engine.config.ackTimeout ++ toBytes 1 ps.engine.config.retryLimit ++
  toBytes 1 ps.engine.config.backoffCap ++ [ps.engine.config.stall.code] ++
  [flagByte [ps.queue.timeChangeOn, ps.queue.peerResetOn]] ++
  toBytes 1 ps.queue.records.length ++
  (match ps.queue.records with
   | q :: _ => toBytes 2 q.seq.toNat
   | [] => []) ++
  toBytes 2 ps.queue.nextSeq.toNat ++ toBytes 1 ps.queue.pendingLost ++ [ps.queue.epoch] ++
  [ps.link.faults.kind.code] ++ toBytes 1 ps.link.faults.count ++ [flagByte [ps.link.faults.multiple]] ++
  toBytes 1 ps.link.fifo.length ++ toBytes 1 ps.link.responses.length ++
  toBytes 4 ps.link.framesAccepted.toNat ++ toBytes 4 ps.link.requestsExecuted.toNat ++
  toBytes 4 ps.engine.staleAcks.toNat ++ toBytes 4 ps.engine.retransmissions.toNat ++
  toBytes 4 ps.engine.delivered.toNat ++ toBytes 4 ps.queue.lostTotal.toNat

/-- GET_PORT_STATUS (R188). -/
def execGetPortStatus (p : Port) (s : State) : Host.Outcome State Fault Refusal :=
  whenReleased s (fun s => s.serve p 0x31 (withLength 0 (fun _ t => (t, Reply.okWith (t.port p).statusBytes))))

/-- CLEAR_FAULTS (R189). -/
def execClearFaults (p : Port) (s : State) : Host.Outcome State Fault Refusal :=
  whenReleased s (fun s => s.serve p 0x32 (withLength 0 (fun _ t =>
    (t.setLink p { t.link p with faults := FaultRecord.clear }, Reply.plain .ok))))

/-- R189, Table 10-11: part code, revision and capacities. -/
def infoBytes : List Byte :=
  toBytes 2 Config.partCode ++ toBytes 1 Config.revision ++
  toBytes 1 4 ++ toBytes 1 64 ++ toBytes 1 Config.reservedEntries ++ toBytes 1 Config.poolCapacity ++
  toBytes 1 8 ++ toBytes 1 4 ++ toBytes 1 Config.queueCapacity ++ toBytes 1 Config.fifoCapacity

/-- GET_INFO (R189). -/
def execGetInfo (p : Port) (s : State) : Host.Outcome State Fault Refusal :=
  whenReleased s (fun s => s.serve p 0x33 (withLength 0 (fun _ t => (t, Reply.okWith infoBytes))))

/-- PORT_RESET (R190): answered OK with the epoch the reset will set; the reset takes effect at the end of the
response's transmission. -/
def execPortReset (p : Port) (s : State) : Host.Outcome State Fault Refusal :=
  whenReleased s (fun s => s.serve p 0x34 (withLength 0 (fun _ t =>
    (t, { status := .ok, results := [(t.port p).queue.epoch + 1], resets := true }))))

end Sys2Proof.Machine
end

