-- ==== Sys2Proof/Machine/Dispatch.lean ====
section
/-! DEFINITION. One arm per command: each a direct call of its meaning. -/

namespace Sys2Proof.Machine

def exec (i : Instr) (s : State) : Host.Outcome State Fault Refusal :=
  match i with
  | .runTimeAdvance => Sys2Proof.Machine.execRunTimeAdvance s
  | .adjustedAdvance => Sys2Proof.Machine.execAdjustedAdvance s
  | .secondBoundary => Sys2Proof.Machine.execSecondBoundary s
  | .calendarEnd => Sys2Proof.Machine.execCalendarEnd s
  | .readTime p => Sys2Proof.Machine.execReadTime p s
  | .claimAuthority p => Sys2Proof.Machine.execClaimAuthority p s
  | .releaseAuthority p => Sys2Proof.Machine.execReleaseAuthority p s
  | .leaseExpiry => Sys2Proof.Machine.execLeaseExpiry s
  | .setCivil p => Sys2Proof.Machine.execSetCivil p s
  | .stepCivil p => Sys2Proof.Machine.execStepCivil p s
  | .cancelStep p => Sys2Proof.Machine.execCancelStep p s
  | .slewCivil p => Sys2Proof.Machine.execSlewCivil p s
  | .invalidateCivil p => Sys2Proof.Machine.execInvalidateCivil p s
  | .createEntry p => Sys2Proof.Machine.execCreateEntry p s
  | .queryEntry p => Sys2Proof.Machine.execQueryEntry p s
  | .listEntries p => Sys2Proof.Machine.execListEntries p s
  | .cancelEntry p => Sys2Proof.Machine.execCancelEntry p s
  | .suspendEntry p => Sys2Proof.Machine.execSuspendEntry p s
  | .resumeEntry p => Sys2Proof.Machine.execResumeEntry p s
  | .monoFiring => Sys2Proof.Machine.execMonoFiring s
  | .civilFiring => Sys2Proof.Machine.execCivilFiring s
  | .claimLine p => Sys2Proof.Machine.execClaimLine p s
  | .releaseLine p => Sys2Proof.Machine.execReleaseLine p s
  | .driveLine p => Sys2Proof.Machine.execDriveLine p s
  | .pulseEnd l => Sys2Proof.Machine.execPulseEnd l s
  | .claimInput p => Sys2Proof.Machine.execClaimInput p s
  | .releaseInput p => Sys2Proof.Machine.execReleaseInput p s
  | .captureEdge n level => Sys2Proof.Machine.execCaptureEdge n level s
  | .holdoffExpiry n => Sys2Proof.Machine.execHoldoffExpiry n s
  | .transmitStart p => Sys2Proof.Machine.execTransmitStart p s
  | .noteTransmissionEnd p => Sys2Proof.Machine.execNoteTransmissionEnd p s
  | .responseTransmissionEnd p => Sys2Proof.Machine.execResponseTransmissionEnd p s
  | .ackFrame p => Sys2Proof.Machine.execAckFrame p s
  | .ackTimeout p => Sys2Proof.Machine.execAckTimeout p s
  | .backoffExpiry p => Sys2Proof.Machine.execBackoffExpiry p s
  | .setPortConfig p => Sys2Proof.Machine.execSetPortConfig p s
  | .frameComplete p b => Sys2Proof.Machine.execFrameComplete p b s
  | .lengthFault p b => Sys2Proof.Machine.execLengthFault p b s
  | .gapExpiry p => Sys2Proof.Machine.execGapExpiry p s
  | .breakSeen p => Sys2Proof.Machine.execBreakSeen p s
  | .unknownRequest p => Sys2Proof.Machine.execUnknownRequest p s
  | .getPortStatus p => Sys2Proof.Machine.execGetPortStatus p s
  | .clearFaults p => Sys2Proof.Machine.execClearFaults p s
  | .getInfo p => Sys2Proof.Machine.execGetInfo p s
  | .portReset p => Sys2Proof.Machine.execPortReset p s
  | .deviceReset => Sys2Proof.Machine.execDeviceReset s
  | .resetRelease r1 r0 c0 c1 c2 c3 => Sys2Proof.Machine.execResetRelease r1 r0 c0 c1 c2 c3 s
  | .characterReceived p b moment => Sys2Proof.Machine.execCharacterReceived p b moment s
  | .receiveLineAtMark p => Sys2Proof.Machine.execReceiveLineAtMark p s

end Sys2Proof.Machine
end

