-- ==== Sys2Proof/Machine/Clock.lean ====
section
/-! DEFINITION. What passes while no command waits: one REFCLK cycle (R1; notes/assumptions/2).
-/

namespace Sys2Proof.Machine

/-- R1: one REFCLK cycle while RST_N is high; the tenth takes a run-time advance.  An advance that an event of the
present instant holds back (notes/assumptions/8) leaves the ninth cycle counted. -/
def State.refclk (s : State) : State :=
  if s.rstN then
    if s.refclkCycles + 1 < Config.cyclesPerAdvance then { s with refclkCycles := s.refclkCycles + 1 }
    else if s.settled then s.takeAdvance
    else s
  else s

/-- A command put at the front of the queue. -/
def State.enqueueFront (s : State) (c : Instr) : State := { s with pending := c :: s.pending }

end Sys2Proof.Machine
end

