-- ==== Sys2Proof/Safety.lean ====
section
/-! DEFINITION. The words the statements are written in: the invariants that the manual gives block by block, when a
port takes a request, and what a step leaves as it was.
-/

namespace Sys2Proof.Machine

/-! ### Invariants -/

/-- R18, R22: the waiter set never contains the holder and is empty while there is none; no step is pending while the
holder is NONE. -/
def AuthorityOk (s : State) : Prop :=
  match s.lease with
  | none => (∀ p : Port, s.waiters[p] = false) ∧ s.step = none
  | some l => s.waiters[l.holder] = false

/-- R5, R26, R33, R34: no slew and no step while civil time is UNSET; a running slew has an offset left, a rate in
range, the interval of its rate and a count below it. -/
def CorrectionsOk (s : State) : Prop :=
  (s.civil = none → s.slew = none ∧ s.step = none) ∧
  ∀ w : Slew, s.slew = some w →
    1 ≤ w.remaining.natAbs ∧ w.remaining.natAbs ≤ 10000000 ∧ 1 ≤ w.rate ∧ w.rate ≤ 500 ∧
    w.interval = 1000000 / w.rate ∧ w.count < w.interval

/-- R30: the result of the pending step, at its target boundary or at the boundary already reached, lies in the civil
range. -/
def PendingStep.ok (x : PendingStep) (held : Civil) : Prop :=
  match x.reached with
  | none => held.targetBoundary.year ≤ 2199 ∧ inCivilRange (held.targetBoundary.shifted x.offset) = true
  | some b => inCivilRange (b.shifted x.offset) = true

/-- R1, R6, R13, R30: run time is in its range, the civil record held is well formed, and a pending step will leave it
so. -/
def TimeOk (s : State) : Prop :=
  s.runTime < Config.runTimeLimit ∧ s.refclkCycles < Config.cyclesPerAdvance ∧
  ∀ c : Civil, s.civil = some c → c.wellFormed = true ∧ ∀ x : PendingStep, s.step = some x → x.ok c

/-- R111, R112, R118: an unowned line drives LOW without a pending pulse end; a line with one is owned and drives its
active level. -/
def LineState.ok (l : LineState) : Prop :=
  match l.claim with
  | none => l.level = .low ∧ l.pulse = none
  | some c => l.pulse.isSome = true → l.level = flipLevel c.idle

/-- Table 7-1: the holdoff and the suppressed count of an owned input are in their ranges. -/
def InputState.ok (i : InputState) : Prop :=
  ∀ c : InputClaim, i.claim = some c → c.holdoff ≤ 65535 ∧ c.suppressed ≤ 65535

/-- Every line, and every input, is as its chapter says; a pin's level has been seen while RST_N is high (R130). -/
def PinsOk (s : State) : Prop :=
  (∀ l : Line, (s.line l).ok) ∧ (∀ i : Input, (s.input i).ok) ∧
  (s.rstN = true → ∀ i : Input, (s.input i).seen ≠ none)

/-- R146, R150, R152: at most 16 records, their sequence numbers consecutive up to the next one, and the lost counts in
their range. -/
def NoteQueue.ok (q : NoteQueue) : Prop :=
  q.records.length ≤ 16 ∧
  (∀ i : Nat, ∀ h : i < q.records.length,
    q.records[i].seq = q.nextSeq - BitVec.ofNat 16 (q.records.length - i)) ∧
  q.pendingLost ≤ 255 ∧ ∀ r ∈ q.records, r.lostBefore ≤ 255

/-- Table 9-3: the ranges of a delivery configuration. -/
def DeliveryConfig.ok (c : DeliveryConfig) : Prop :=
  1 ≤ c.ackTimeout ∧ c.ackTimeout ≤ 255 ∧ c.retryLimit ≤ 15 ∧ c.backoffCap ≤ 7

/-- Table 9-2, R162: a delivery state with the queue, the frame at the arbiter and the timers that go with it; the instant
of the stall stands exactly in STALLED. -/
def Engine.ok (e : Engine) (queueEmpty : Bool) : Prop :=
  e.config.ok ∧
  (e.state = .stalled ↔ e.stalledAt ≠ none) ∧
  match e.state with
  | .idle =>
    queueEmpty = true ∧ e.frame = .absent ∧ e.ackEnd = none ∧ e.backoffEnd = none ∧ e.attempts = 0
  | .awaitAck =>
    queueEmpty = false ∧ e.backoffEnd = none ∧ (e.frame = .absent ↔ e.ackEnd ≠ none) ∧ e.attempts ≤ 15
  | .backoff =>
    queueEmpty = false ∧ e.ackEnd = none ∧ (e.frame = .absent ↔ e.backoffEnd ≠ none) ∧ e.attempts ≤ 15
  | .stalled =>
    queueEmpty = false ∧ e.frame = .absent ∧ e.ackEnd = none ∧ e.backoffEnd = none ∧ e.attempts ≤ 16

/-- Table 10-4: a frame being assembled has a LEN in range and is not yet whole. -/
def Receiver.ok (r : Receiver) : Prop :=
  match r with
  | .waitMark => True
  | .hunt => True
  | .length _ => True
  | .body len chars _ => 1 ≤ len.toNat ∧ len.toNat ≤ 200 ∧ chars.length < len.toNat + 2

/-- R180, R183, R184, R185: the receiver, the receive line, the FIFO, the pending responses and the frame-fault record of a
link. -/
def Link.ok (l : Link) : Prop :=
  (l.rx = .waitMark → l.spaceSince = none ∧ l.arriving = none) ∧
  l.rx.ok ∧ l.fifo.length ≤ 4 ∧ l.responses.length ≤ 4 ∧
  l.faults.count ≤ 255 ∧ (l.faults.kind = .noFault ↔ l.faults.count = 0)

/-- R164: the frame on the line is the engine's NOTE frame. -/
def TxFrame.isLiveNote : Option TxFrame → Bool
  | some (.note _ live) => live
  | some (.response _ _) => false
  | some (.cut _ _) => false
  | none => false

/-- What holds of a port: its queue, its engine, its link, and the engine's frame is ON_WIRE exactly while the line
carries it. -/
def PortState.ok (ps : PortState) : Prop :=
  ps.queue.ok ∧ ps.engine.ok ps.queue.records.isEmpty ∧ ps.link.ok ∧
  (ps.engine.frame = .onWire ↔ TxFrame.isLiveNote ps.link.tx = true)

/-- Every port is as its chapters say. -/
def PortsOk (s : State) : Prop := ∀ p : Port, (s.port p).ok

/-- Table 3-1, Table 3-2: the states a kind may be in, and the fields an entry has in a state. -/
def Entry.ok (e : Entry) : Prop :=
  match e.timing with
  | .once _ => e.state = .armed ∨ e.state = .suspended
  | .periodic _ _ period skips => (e.state = .armed ∨ e.state = .suspended) ∧ 100 ≤ period ∧ skips ≤ 255
  | .pattern pat next _ skips =>
    e.state ≠ .waiting ∧ (next ≠ none ↔ e.state = .armed) ∧ pat.inRange = true ∧ skips ≤ 255
  | .afterCapture _ _ _ due => e.state ≠ .dormant ∧ (due ≠ none ↔ e.state = .armed)

/-- R66: the due of an entry's position in the MONO due list: one while it is ARMED and of a run-time kind. -/
def Entry.monoDues (e : Entry) : List Nat := if e.state = .armed then e.timing.due.toList else []

/-- R66, R96: the next match of an entry's position in the CIVIL due list: one while it is ARMED and PATTERN. -/
def Entry.civilMatches (e : Entry) : List Civil := if e.state = .armed then e.timing.next.toList else []

/-- The positions of an id in the MONO due list, by their dues. -/
def State.monoAt (s : State) (id : EntryId) : List Nat := (s.mono.filter (fun x => x.id == id)).map (fun x => x.due)

/-- The positions of an id in the CIVIL due list, by their next matches. -/
def State.civilAt (s : State) (id : EntryId) : List Civil :=
  (s.civils.filter (fun x => x.id == id)).map (fun x => x.next)

/-- R47, R66, R97: one slot and the two lists agree. -/
def SlotOk (s : State) (id : EntryId) : Prop :=
  match (s.slot id).entry with
  | none => s.monoAt id = [] ∧ s.civilAt id = []
  | some e => e.ok ∧ s.monoAt id = e.monoDues ∧ s.civilAt id = e.civilMatches

/-- R66, R96: an entry is in the MONO due list exactly when it is ARMED and of a run-time kind, in the CIVIL due list
exactly when it is ARMED and PATTERN, none twice, each position with the entry's due or next match; both lists are in
order. -/
def ListsOk (s : State) : Prop :=
  (∀ id : EntryId, SlotOk s id) ∧
  s.mono.Pairwise (fun x y => x.before y = true) ∧ s.civils.Pairwise (fun x y => x.before y = true)

/-- R96, R100, R101: while civil time is UNSET no PATTERN entry is ARMED; while it is VALID no entry is DORMANT. -/
def ValidityOk (s : State) : Prop :=
  match s.civil with
  | none => s.civils = []
  | some _ => ∀ id : EntryId, ∀ e : Entry, (s.slot id).entry = some e → e.state ≠ .dormant

/-- R48: every held count is the number of the port's entries, and the pool use is the sum of what the ports hold
beyond 8, never more than 32. -/
def CountsOk (s : State) : Prop :=
  (∀ p : Port, s.heldBy p = (s.entriesOf p).length) ∧
  s.poolUse = (s.heldBy 0 - 8) + (s.heldBy 1 - 8) + (s.heldBy 2 - 8) + (s.heldBy 3 - 8) ∧
  s.poolUse ≤ 32

/-- R17, R128, R144, R145, R162, R193: while RST_N is low everything holds its device-reset value. -/
def ResetOk (s : State) : Prop :=
  s.rstN = false → s = { State.reset with freeCount := s.freeCount, pending := s.pending }

/-! ### Requests -/

/-- R185: port `p` may take a request, and the request at its FIFO's head has this tag, code and argument field. -/
abbrev Requested (s : State) (p : Port) (tag code : Byte) (args : List Byte) : Prop :=
  s.rstN = true ∧ (s.link p).responses.length < 4 ∧ (s.link p).resetAwaited = false ∧
  (s.link p).fifo.head? = some (tag :: code :: args)

/-- The port and the code of a request command. -/
def requestOf : Instr → Option (Port × Byte)
  | .readTime p => some (p, 0x01)
  | .claimAuthority p => some (p, 0x02)
  | .releaseAuthority p => some (p, 0x03)
  | .setCivil p => some (p, 0x04)
  | .stepCivil p => some (p, 0x05)
  | .cancelStep p => some (p, 0x06)
  | .slewCivil p => some (p, 0x07)
  | .invalidateCivil p => some (p, 0x08)
  | .createEntry p => some (p, 0x10)
  | .queryEntry p => some (p, 0x11)
  | .listEntries p => some (p, 0x12)
  | .cancelEntry p => some (p, 0x13)
  | .suspendEntry p => some (p, 0x14)
  | .resumeEntry p => some (p, 0x15)
  | .claimLine p => some (p, 0x20)
  | .releaseLine p => some (p, 0x21)
  | .driveLine p => some (p, 0x22)
  | .claimInput p => some (p, 0x28)
  | .releaseInput p => some (p, 0x29)
  | .setPortConfig p => some (p, 0x30)
  | .getPortStatus p => some (p, 0x31)
  | .clearFaults p => some (p, 0x32)
  | .getInfo p => some (p, 0x33)
  | .portReset p => some (p, 0x34)
  | _ => none

/-- Table 10-9: the length of the argument field of a request code; CREATE_ENTRY's depends on its arguments. -/
def requestLength (code : Byte) : Option Nat :=
  match code.toNat with
  | 0x01 => some 0
  | 0x02 => some 4
  | 0x03 => some 0
  | 0x04 => some 12
  | 0x05 => some 9
  | 0x06 => some 0
  | 0x07 => some 6
  | 0x08 => some 0
  | 0x11 => some 2
  | 0x12 => some 0
  | 0x13 => some 2
  | 0x14 => some 2
  | 0x15 => some 2
  | 0x20 => some 2
  | 0x21 => some 1
  | 0x22 => some 6
  | 0x28 => some 4
  | 0x29 => some 1
  | 0x30 => some 5
  | 0x31 => some 0
  | 0x32 => some 0
  | 0x33 => some 0
  | 0x34 => some 0
  | _ => none

/-! ### What a step leaves as it was -/

/-- The clock and the reset pin are as before. -/
abbrev SameClock (s t : State) : Prop :=
  t.rstN = s.rstN ∧ t.rate1 = s.rate1 ∧ t.rate0 = s.rate0 ∧ t.runTime = s.runTime ∧ t.refclkCycles = s.refclkCycles

/-- Civil time, slew and pending step are as before. -/
abbrev SameCivilTime (s t : State) : Prop := t.civil = s.civil ∧ t.slew = s.slew ∧ t.step = s.step

/-- The authority is as before. -/
abbrev SameAuthority (s t : State) : Prop := t.lease = s.lease ∧ t.waiters = s.waiters

/-- The schedule table is as before. -/
abbrev SameTable (s t : State) : Prop := t.slots = s.slots ∧ t.held = s.held ∧ t.poolUse = s.poolUse

/-- Both due lists are as before, and what is noted of their heads. -/
abbrev SameLists (s t : State) : Prop := t.mono = s.mono ∧ t.civils = s.civils ∧ t.reached = s.reached

/-- Lines and inputs are as before. -/
abbrev SamePins (s t : State) : Prop := t.lines = s.lines ∧ t.inputs = s.inputs

/-- The model's own counter of free values and the queue of commands are as before. -/
abbrev SameModel (s t : State) : Prop := t.freeCount = s.freeCount ∧ t.pending = s.pending

/-- Everything but the ports is as before. -/
abbrev SameBlocks (s t : State) : Prop :=
  SameClock s t ∧ SameCivilTime s t ∧ SameAuthority s t ∧ SameTable s t ∧ SameLists s t ∧ SamePins s t ∧ SameModel s t

/-- The records of `rs` offered to a port in order, one after the other (R147, R149). -/
def PortState.offerList (ps : PortState) (rs : List Record) : PortState := rs.foldl PortState.offer ps

/-- Each port has been offered its own list of records; its link is as before. -/
abbrev Offered (s t : State) (f : Port → List Record) : Prop := ∀ q : Port, t.port q = (s.port q).offerList (f q)

/-! ### Records -/

/-- An AUTHORITY record (R40). -/
def authorityRecord (reason : AuthorityReason) (now : Nat) : Record := .authority { reason := reason, runTime := now }

/-- A TIME_CHANGE record with cause REQUEST (R157). -/
def changeRecord (reason : ChangeReason) (requester : Option Port) (offset : Option Int) (now : Nat)
    (after : Option Civil) : Record :=
  .timeChange { reason := reason, cause := .request, requester := requester, offset := offset, runTime := now,
                civilAfter := after }

/-- A TIME_CHANGE record with cause CALENDAR_END (R157). -/
def endRecord (reason : ChangeReason) (now : Nat) : Record :=
  .timeChange { reason := reason, cause := .calendarEnd, requester := none, offset := none, runTime := now,
                civilAfter := none }

/-- R35, R39: SLEW_CANCELLED when a slew was running, naming the port that requested it. -/
def slewGone (slew : Option Slew) (now : Nat) (after : Option Civil) : List Record :=
  match slew with
  | some w => [changeRecord .slewCancelled (some w.requester) none now after]
  | none => []

/-- R39: STEP_CANCELLED when a step was pending, naming the port that requested it. -/
def stepGone (step : Option PendingStep) (now : Nat) (after : Option Civil) : List Record :=
  match step with
  | some x => [changeRecord .stepCancelled (some x.requester) none now after]
  | none => []

/-- R73: the FIRED record of a firing taken in `s`, for an entry standing in slot `id`. -/
def firedRecord (s : State) (id : EntryId) (e : Entry) (intended : Intended) (outcome : FiringOutcome) (final : Bool)
    (overtaken : Option Source) : Record :=
  .fired { handle := { id := id, gen := (s.slot id).gen }, tag := e.tag, intended := intended, fireTime := s.runTime,
           civilStamp := s.civil, outcome := outcome, skipped := e.timing.skips, final := final, overtaken := overtaken }

/-- R156: the ENTRY_ENDED record of the entry standing in slot `id`. -/
def endedRecord (s : State) (id : EntryId) (e : Entry) (reason : EndReason) : Record :=
  .entryEnded { handle := { id := id, gen := (s.slot id).gen }, tag := e.tag, reason := reason, runTime := s.runTime }

/-! ### Civil records and entries -/

/-- Every field of a civil record has a place in Table 10-7, in its range or not. -/
def Civil.fits (c : Civil) : Prop :=
  c.year < 65536 ∧ c.month < 256 ∧ c.day < 256 ∧ c.hour < 256 ∧ c.minute < 256 ∧ c.second < 256 ∧ c.micro < 4294967296

/-- R101: what an invalidation makes of an entry. -/
def Entry.madeDormant (e : Entry) : Entry :=
  match e.state, e.timing with
  | .armed, .pattern p _ policy skips => { e with state := .dormant, timing := .pattern p none policy skips }
  | _, _ => e

/-- R36, R101: civil time is gone: UNSET, no slew, no step, the CIVIL due list empty, every ARMED PATTERN entry
DORMANT, the records offered to all four ports, and nothing else changed. -/
def CivilGone (s t : State) (records : List Record) : Prop :=
  t.civil = none ∧ t.slew = none ∧ t.step = none ∧ t.civils = [] ∧
  (∀ id : EntryId, t.slot id = { s.slot id with entry := (s.slot id).entry.map Entry.madeDormant }) ∧
  (ListsOk s → t.mono = s.mono) ∧ t.reached = s.reached ∧
  t.held = s.held ∧ t.poolUse = s.poolUse ∧
  SameClock s t ∧ SameAuthority s t ∧ SamePins s t ∧ SameModel s t ∧ Offered s t (fun _ => records)

/-- Table 10-10: the line action part of a CREATE_ENTRY's arguments; the width of an action other than PULSE is any. -/
def LineAction.argument (a : LineAction) (width : Nat) : List Byte :=
  BitVec.ofNat 8 a.line.val :: match a.action with
    | .toActive => 0 :: toBytes 4 width
    | .toIdle => 1 :: toBytes 4 width
    | .toggle => 2 :: toBytes 4 width
    | .pulse w => 3 :: toBytes 4 w

/-- Table 10-10: the part of the kind. -/
def Timing.argument : Timing → List Byte
  | .once due => toBytes 8 due
  | .periodic _ first period _ => toBytes 8 first ++ toBytes 4 period
  | .pattern pat _ policy _ => pat.bytes ++ [policy.code]
  | .afterCapture i delay rearm _ => BitVec.ofNat 8 i.val :: (toBytes 4 delay ++ [boolByte rearm])

/-- Table 10-10: the argument field of a CREATE_ENTRY that sends `given` as its remaining count. -/
def CreateArgs.argument (a : CreateArgs) (given width : Nat) : List Byte :=
  a.timing.kindCode :: boolByte a.action.isSome :: (toBytes 2 given ++ [a.notify.code] ++ toBytes 4 a.tag.toNat ++
    (match a.action with
     | some x => x.argument width
     | none => []) ++ a.timing.argument)

/-- R51 to R55: arguments in their ranges, with the timing fields of a new entry; a ONCE entry holds remaining 1
whatever is sent. -/
def CreateArgs.inRange (a : CreateArgs) (given : Nat) : Prop :=
  given < 65536 ∧
  (∀ x w, a.action = some x → x.action = .pulse w → 1 ≤ w ∧ w ≤ 1000000) ∧
  match a.timing with
  | .once due => due < Config.runTimeLimit ∧ a.remaining = 1
  | .periodic due first period skips =>
    a.remaining = given ∧ due = first ∧ first < Config.runTimeLimit ∧ 100 ≤ period ∧ period < 4294967296 ∧ skips = 0
  | .pattern pat next _ skips => a.remaining = given ∧ pat.inRange = true ∧ next = none ∧ skips = 0
  | .afterCapture _ delay _ due => a.remaining = given ∧ delay < 4294967296 ∧ due = none

/-- R48: a port's held count set, the pool use formed again, nothing else changed. -/
def HeldSet (s t : State) (p : Port) (n : Nat) : Prop :=
  t.heldBy p = n ∧ (∀ q : Port, q ≠ p → t.heldBy q = s.heldBy q) ∧
  t.poolUse = (t.heldBy 0 - 8) + (t.heldBy 1 - 8) + (t.heldBy 2 - 8) + (t.heldBy 3 - 8)

/-- Everything but the table and the due lists is as before. -/
abbrev SameOutsideTable (s t : State) : Prop :=
  SameClock s t ∧ SameCivilTime s t ∧ SameAuthority s t ∧ SamePins s t ∧ SameModel s t ∧ t.ports = s.ports ∧
  t.reached = s.reached

/-- One slot changed, the others as before. -/
abbrev SlotSet (s t : State) (id : EntryId) (x : Slot) : Prop :=
  t.slot id = x ∧ ∀ j : EntryId, j ≠ id → t.slot j = s.slot j

end Sys2Proof.Machine
end

