-- ==== Sys2Proof/Certificates/Slice0/Obligations.lean ====
section
/-! DEFINITION. The statements for the provers, each a rule of the manual or a model choice that its docstring names.
-/

section Statements

open Sys2Proof Sys2Proof.Machine

/-! ### The step, the clock and the resets -/

/-- A step takes the command at the front of the queue and runs it on the state with the queue's rest (the model's
interface). -/
def Obligations.StepTakesFrontCommand : Prop :=
  ∀ (s : State) (c : Instr) (rest : List Instr),
    s.pending = c :: rest → step s = exec c { s with pending := rest }

/-- R1 and notes/assumptions/2 and 8 (model's choice): with no command waiting a step is one REFCLK cycle; the tenth
takes the run-time advance unless an event of the present instant is still to be taken, as RunTimeAndAdjustedAdvance
writes out; while RST_N is low nothing happens. -/
def Obligations.EmptyQueueIsOneReferenceCycle : Prop :=
  ∀ s : State, s.pending = [] →
    (s.rstN = false → step s = .next s) ∧
    (s.rstN = true → s.refclkCycles + 1 < 10 → step s = .next { s with refclkCycles := s.refclkCycles + 1 }) ∧
    (s.rstN = true → 10 ≤ s.refclkCycles + 1 → s.settled = true → step s = exec .runTimeAdvance s) ∧
    (s.rstN = true → 10 ≤ s.refclkCycles + 1 → s.settled = false → step s = .next s)

/-- R17, R18, R42, R66, R96, R128, R144, R145, R162, R193: the device reset completes in every state; R1, R130, R178:
so does its release, which samples the straps and takes the first capture levels (notes/assumptions/20).  The note of the
heads reached and the instant of a stall are the model's own (notes/assumptions/29 and 28). -/
def Obligations.DeviceResetAndItsRelease : Prop :=
  (∀ s : State, ∃ t : State, exec .deviceReset s = .next t ∧
    t.rstN = false ∧ t.runTime = 0 ∧ t.refclkCycles = 0 ∧ t.civil = none ∧ t.slew = none ∧ t.step = none ∧
    t.lease = none ∧ (∀ p : Port, t.waiters[p] = false) ∧
    (∀ id : EntryId, t.slot id = { gen := 0, entry := none }) ∧ (∀ p : Port, t.heldBy p = 0) ∧ t.poolUse = 0 ∧
    t.mono = [] ∧ t.civils = [] ∧ t.reached = { mono := false, civil := false } ∧
    (∀ l : Line, t.line l = { claim := none, level := .low, pulse := none }) ∧
    (∀ i : Input, t.input i = { claim := none, seen := none }) ∧
    (∀ p : Port,
      (t.port p).queue =
        { records := [], nextSeq := 0, pendingLost := 0, epoch := 0, timeChangeOn := true, peerResetOn := true,
          lostTotal := 0 } ∧
      (t.port p).engine =
        { state := .idle, stalledAt := none, attempts := 0, frame := .absent, ackEnd := none, backoffEnd := none,
          config := { ackTimeout := 10, retryLimit := 7, backoffCap := 4, stall := .keep },
          delivered := 0, retransmissions := 0, staleAcks := 0 } ∧
      (t.link p).rx = .waitMark ∧ (t.link p).spaceSince = none ∧ (t.link p).arriving = none ∧ (t.link p).fifo = [] ∧ (t.link p).responses = [] ∧ (t.link p).tx = none ∧
      (t.link p).faults = { kind := .noFault, count := 0 } ∧
      (t.link p).framesAccepted = 0 ∧ (t.link p).requestsExecuted = 0) ∧
    t.pending = s.pending) ∧
  (∀ (s : State) (r1 r0 : Bool) (c0 c1 c2 c3 : Level), s.rstN = false →
    ∃ t : State, exec (.resetRelease r1 r0 c0 c1 c2 c3) s = .next t ∧
      t.rstN = true ∧ t.rate1 = r1 ∧ t.rate0 = r0 ∧
      t.input 0 = { s.input 0 with seen := some c0 } ∧ t.input 1 = { s.input 1 with seen := some c1 } ∧
      t.input 2 = { s.input 2 with seen := some c2 } ∧ t.input 3 = { s.input 3 with seen := some c3 } ∧
      t.runTime = s.runTime ∧ t.refclkCycles = s.refclkCycles ∧ SameCivilTime s t ∧ SameAuthority s t ∧
      SameTable s t ∧ SameLists s t ∧ t.lines = s.lines ∧ t.ports = s.ports ∧ SameModel s t)

/-- R1, R17, R128, R144, R145, R162, R193 with notes/assumptions/1: while RST_N is low no command but the two of the pin
changes anything, and the device-reset values hold for as long as RST_N is low.  `ResetOk` has among them the values that are
the model's choices: the straps 0 (notes/assumptions/7), no ACK frame handed over (notes/assumptions/15) and no head
reached (notes/assumptions/29). -/
def Obligations.NothingHappensInReset : Prop :=
  (∀ (s : State) (c : Instr), s.rstN = false → c ≠ .deviceReset →
    (∀ r1 r0 c0 c1 c2 c3, c ≠ .resetRelease r1 r0 c0 c1 c2 c3) → exec c s = .next s) ∧
  (∀ s t : State, ResetOk s → step s = .next t → ResetOk t)

/-! ### The two scales of time -/

/-- R7: the Gregorian calendar of the civil range; R9: the weekday of a civil date, which a PATTERN entry's weekday field
is compared with. -/
def Obligations.CalendarAndWeekday : Prop :=
  ((∀ y : Nat, isLeap y = true ↔ (y % 4 = 0 ∧ y % 100 ≠ 0) ∨ (y % 100 = 0 ∧ y % 400 = 0)) ∧
  isLeap 2000 = true ∧ isLeap 2100 = false ∧
  ((List.range 200).filter (fun n => isLeap (2000 + n))).length = 49 ∧
  (∀ y : Nat, isLeap y = true → monthLength y 2 = 29 ∧ daysOfMonths y 12 = 366) ∧
  (∀ y : Nat, isLeap y = false → monthLength y 2 = 28 ∧ daysOfMonths y 12 = 365) ∧
  (∀ y : Nat, ∀ m ∈ [1, 3, 5, 7, 8, 10, 12], monthLength y m = 31) ∧
  (∀ y : Nat, ∀ m ∈ [4, 6, 9, 11], monthLength y m = 30) ∧
  dayMicros = 86400 * 1000000 ∧
  (∀ c : Civil, c.timeOfDay = ((c.hour * 60 + c.minute) * 60 + c.second) * 1000000 + c.micro) ∧
  daysBeforeYear 200 = 73049) ∧
  ((∀ c : Civil, c.weekday = (5 + c.dayNumber) % 7) ∧
  (∀ c : Civil, c.year = 2000 → c.month = 1 → c.day = 1 → c.dayNumber = 0 ∧ c.weekday = 5) ∧
  (∀ c : Civil, c.wellFormed = true →
    ({ c with day := c.day + 1 } : Civil).carryDate.dayNumber = c.dayNumber + 1) ∧
  (∀ (pat : Pattern) (c : Civil) (w : Nat), pat.weekday = some w → pat.matchesAt c = true → c.weekday = w))

/-- R3: a duration that starts at `t` with length `d` ends at `t + d`, formed as a 64-bit sum; what a sum past the range
gives is open (notes/assumptions/4). -/
def Obligations.EndsOfDurations : Prop :=
  (∀ t d : Nat, t + d < 2 ^ 64 → endInstant t d = t + d) ∧ ∀ t d : Nat, endInstant t d < 2 ^ 64

/-- R8: a civil record and its civil count determine each other over the whole civil range; R10, R13: an advance of 0, 1 or
2 µs, carried through every field, adds the amount to the civil count, and the year passes 2199 exactly when the count
reaches the calendar end. -/
def Obligations.CivilCounts : Prop :=
  ((∀ c : Civil, c.wellFormed = true → c.count < 6311433600000000 ∧ Civil.ofCount c.count = c) ∧
  (∀ n : Nat, n < 6311433600000000 → (Civil.ofCount n).wellFormed = true ∧ (Civil.ofCount n).count = n)) ∧
  (∀ (c : Civil) (n : Nat), c.wellFormed = true → n ≤ 2 →
    (c.count + n < 6311433600000000 → (c.advance n).wellFormed = true ∧ (c.advance n).count = c.count + n) ∧
    (6311433600000000 ≤ c.count + n ↔ 2199 < (c.advance n).year))

/-- R1, R10, R12, R34: an advance that is not an adjusted one; R34, R35: the advance at which the slew count reaches K.  The
advance past the end of the run-time range completes with an open run time in the range, and moves civil time as every
other one (notes/assumptions/3).  An advance is taken only when nothing that the present instant's advance brought is still
to be taken, which is written out (R3, R12, R69, R98, R181, R184; notes/assumptions/8 and 29, deduced; that requests, frames
and ACKs which wait hold no advance back is notes/assumptions/30, model's choice), and after it a position whose late mark is
clear lies less than 100 µs back (R79; the number is notes/assumptions/31, model's choice).  That RUN_TIME_ADVANCE is the
adjusted advance and the calendar end where the advance is of that kind, and that ADJUSTED_ADVANCE changes nothing elsewhere,
is notes/assumptions/9; the whole second kept in the pending step is notes/assumptions/11 (both deduced). -/
def Obligations.RunTimeAndAdjustedAdvance : Prop :=
  (∀ s : State, s.rstN = true → s.settled = true → ∃ now free : Nat, now < 2 ^ 64 ∧
    (s.runTime + 1 < 2 ^ 64 → now = s.runTime + 1 ∧ free = s.freeCount) ∧
    (2 ^ 64 ≤ s.runTime + 1 → free = s.freeCount + 1) ∧
    let ticked : State := { s with runTime := now, refclkCycles := 0, freeCount := free }
    let noted := fun t : State => ({ t with reached := reachedHeads s t } : State)
    let told := fun (c : Civil) (n : Nat) => s.step.map (fun x =>
      if 1000000 ≤ c.micro + n then { x with reached := some { c.advance n with micro := 0 } } else x)
    (s.civil = none → exec .runTimeAdvance s = .next (noted ticked)) ∧
    (∀ c : Civil, s.civil = some c → (c.advance 1).year ≤ 2199 →
      (s.slew = none →
        exec .runTimeAdvance s = .next (noted { ticked with civil := some (c.advance 1), step := told c 1 })) ∧
      (∀ w : Slew, s.slew = some w → w.count + 1 < w.interval →
        exec .runTimeAdvance s = .next
          (noted { ticked with
            civil := some (c.advance 1), slew := some { w with count := w.count + 1 }, step := told c 1 }))) ∧
    (∀ (c : Civil) (w : Slew), s.civil = some c → s.slew = some w → w.interval ≤ w.count + 1 → w.remaining ≠ 0 →
      let n := if 0 < w.remaining then 2 else 0
      let left := if 0 < w.remaining then w.remaining - 1 else w.remaining + 1
      let moved : State :=
        { ticked with
          civil := some (c.advance n)
          slew := if left = 0 then none else some { w with remaining := left, count := 0 }
          step := told c n }
      (c.advance n).year ≤ 2199 →
        (left ≠ 0 → exec .adjustedAdvance s = .next (noted moved)) ∧
        (left = 0 →
          exec .adjustedAdvance s = .next
            (noted (moved.offerEach (fun _ => [changeRecord .slewDone none none now (some (c.advance n))])))))) ∧
  (∀ s : State,
    (∀ (c : Civil) (w : Slew), s.civil = some c → s.slew = some w → w.interval ≤ w.count + 1 →
      exec .runTimeAdvance s = exec .adjustedAdvance s) ∧
    (∀ c : Civil, s.civil = some c → 2199 < (c.advance (advanceAmount s.slew)).year →
      exec .runTimeAdvance s = exec .calendarEnd s)) ∧
  (∀ s : State, s.rstN = true →
    (s.settled = false → exec .runTimeAdvance s = .next s) ∧
    (s.settled = false ∨ s.adjustsNext = false → exec .adjustedAdvance s = .next s)) ∧
  (∀ s : State, s.rstN = true → s.settled = true → s.runTime + 1 < 2 ^ 64 → s.reachesCalendarEnd = false →
    ∃ t : State, exec .runTimeAdvance s = .next t ∧ t.mono = s.mono ∧
      ∀ x ∈ t.mono, x.late = false → t.runTime < x.due + 100) ∧
  (∀ s : State, s.settled = true ↔
    (∀ x ∈ s.mono, x.late = false → s.runTime + 1 < x.due + 100) ∧
    (∀ l : Lease, s.lease = some l → s.runTime < l.expiry) ∧
    (∀ (l : Line) (x : PulseEnd), (s.line l).pulse = some x → s.runTime < x.endAt) ∧
    (∀ (i : Input) (c : InputClaim) (t : Nat), (s.input i).claim = some c → c.holdoffEnd = some t → s.runTime < t) ∧
    (∀ (p : Port) (t : Nat), (s.port p).engine.ackEnd = some t → s.runTime < t) ∧
    (∀ (p : Port) (t : Nat), (s.port p).engine.backoffEnd = some t → s.runTime < t) ∧
    (∀ (p : Port) (g : Nat), (s.link p).arriving = none →
      ((s.link p).rx = .length g ∨ ∃ len chars, (s.link p).rx = .body len chars g) → s.runTime ≤ g + 1000) ∧
    (∀ (p : Port) (t : Nat), (s.link p).spaceSince = some t → s.runTime < t + 2000) ∧
    (∀ x : PendingStep, s.step = some x → x.reached = none) ∧
    (s.reached.mono = true → ∀ (x : MonoPos) (rest : List MonoPos), s.mono = x :: rest → s.runTime < x.due) ∧
    (s.reached.civil = true → ∀ (c : Civil) (x : CivilPos) (rest : List CivilPos), s.civil = some c →
      s.civils = x :: rest → c.count < x.next.count)) ∧
  (∀ s t : State,
    ((reachedHeads s t).mono = true ↔
      ∃ x rest, t.mono = x :: rest ∧ s.runTime < x.due ∧ x.due ≤ t.runTime) ∧
    ((reachedHeads s t).civil = true ↔
      ∃ x rest old new, t.civils = x :: rest ∧ s.civil = some old ∧ t.civil = some new ∧ old.count < x.next.count ∧
        x.next.count ≤ new.count))

/-- R13, R37, R38, R39: the calendar end, at an advance of 1 or, under a slew, of 2, from a state in which nothing of the
present instant is still to be taken (notes/assumptions/8, deduced).  A slew whose last adjustment falls there is cancelled
and not done (notes/assumptions/10, deduced); run time past its range is open (notes/assumptions/3); the heads reached are
noted (notes/assumptions/29); at another advance the command changes nothing (notes/assumptions/9, deduced). -/
def Obligations.CalendarEnd : Prop :=
  (∀ (s : State) (c : Civil), s.rstN = true → s.settled = true → s.civil = some c →
    2199 < (c.advance (advanceAmount s.slew)).year →
    ∃ (t : State) (now free : Nat), exec .calendarEnd s = .next t ∧ now < 2 ^ 64 ∧
      (s.runTime + 1 < 2 ^ 64 → now = s.runTime + 1 ∧ free = s.freeCount) ∧
      (2 ^ 64 ≤ s.runTime + 1 → free = s.freeCount + 1) ∧ t.reached = reachedHeads s t ∧
      CivilGone { s with runTime := now, refclkCycles := 0, freeCount := free, reached := t.reached } t
        ((match s.slew with
          | some _ => [endRecord .slewCancelled now]
          | none => []) ++
         (match s.step with
          | some _ => [endRecord .stepCancelled now]
          | none => []) ++ [endRecord .invalidated now])) ∧
  (∀ s : State, s.rstN = true →
    (s.settled = false ∨ s.civil = none ∨ (∀ c : Civil, s.civil = some c → (c.advance (advanceAmount s.slew)).year ≤ 2199)) →
    exec .calendarEnd s = .next s)

/-- R12, R30: the boundary event applies a pending step at the boundary instant, and has no effect without one.  That the
boundary instant stands in the pending step from the advance to this event, and that a step without it waits for the next
boundary, is notes/assumptions/11 (deduced); that the event named where there is none changes nothing is
notes/assumptions/1 (model's choice). -/
def Obligations.SecondBoundary : Prop :=
  ∀ s : State, s.rstN = true →
    (∀ (held b : Civil) (x : PendingStep), s.civil = some held → s.step = some x → x.reached = some b →
      let new := Civil.ofCount ((b.count : Int) + x.offset).toNat
      exec .secondBoundary s = .next
        (((({ s with civil := some new, slew := none, step := none } : State).offerEach
            (fun _ => slewGone s.slew s.runTime (some new))).stepPatterns held new).offerEach
          (fun _ => [changeRecord .stepped (some x.requester) (some x.offset) s.runTime (some new)]))) ∧
    (s.step.bind (fun x => x.reached) = none → exec .secondBoundary s = .next s)

/-- R14, R15: the snapshot of READ_TIME, which changes nothing but the port's FIFO, count and responses. -/
def Obligations.ReadTime : Prop :=
  ∀ (s : State) (p : Port) (tag : Byte), Requested s p tag 0x01 [] →
    exec (.readTime p) s = .next
      ((s.takeRequest p).respond p tag 0x01
        { status := .ok, resets := false,
          results :=
            toBytes 8 s.runTime ++ [flagByte [s.civil.isSome, s.step.isSome]] ++
            (match s.civil with
             | some c => c.bytes
             | none => []) ++
            (match s.slew with
             | some w => signedBytes 4 w.remaining ++ toBytes 2 w.rate
             | none => [0, 0, 0, 0, 0, 0]) ++
            (match s.step with
             | some x => signedBytes 8 x.offset ++ [1]
             | none => []) ++
            (match s.lease with
             | some l => BitVec.ofNat 8 l.holder.val :: toBytes 4 ((l.expiry - s.runTime + 999) / 1000)
             | none => [0xFF, 0, 0, 0, 0]) })

/-! ### The authority and the corrections of civil time -/

/-- R19: CLAIM_AUTHORITY, by the state of the unit. -/
def Obligations.ClaimAuthority : Prop :=
  ∀ (s : State) (p : Port) (tag : Byte) (ms : Nat), ms < 4294967296 → Requested s p tag 0x02 (toBytes 4 ms) →
    let t := s.takeRequest p
    let granted : Lease := { holder := p, expiry := endInstant s.runTime (ms * 1000) }
    (ms < 100 ∨ 600000 < ms → exec (.claimAuthority p) s = .next (t.respond p tag 0x02 (Reply.plain .range))) ∧
    (100 ≤ ms → ms ≤ 600000 →
      (s.lease = none →
        exec (.claimAuthority p) s =
          .next (({ t with lease := some granted } : State).respond p tag 0x02 (Reply.plain .ok))) ∧
      (∀ l : Lease, s.lease = some l → l.holder = p →
        exec (.claimAuthority p) s =
          .next (({ t with lease := some granted } : State).respond p tag 0x02 (Reply.plain .ok))) ∧
      (∀ l : Lease, s.lease = some l → l.holder ≠ p →
        exec (.claimAuthority p) s = .next
          (({ t with waiters := s.waiters.set p true } : State).respond p tag 0x02
            { status := .held, results := [BitVec.ofNat 8 l.holder.val], resets := false })))

/-- R20, R22: RELEASE_AUTHORITY ends the holder's authority and is refused to every other port; R21, R22, R40: the lease
expiry, taken once run time has come to the expiry instant and not before. -/
def Obligations.EndsOfTheAuthority : Prop :=
  (∀ (s : State) (p : Port) (tag : Byte), Requested s p tag 0x03 [] →
    let t := s.takeRequest p
    (∀ l : Lease, s.lease = some l → l.holder = p →
      exec (.releaseAuthority p) s = .next
        ((State.offerEach { t with lease := none, waiters := Vector.replicate 4 false, step := none }
          (fun q =>
            (if s.waiters[q] then [authorityRecord .free s.runTime] else []) ++
            stepGone s.step s.runTime s.civil)).respond p tag 0x03 (Reply.plain .ok))) ∧
    ((∀ l : Lease, s.lease = some l → l.holder ≠ p) →
      exec (.releaseAuthority p) s = .next (t.respond p tag 0x03 (Reply.plain .notHolder)))) ∧
  (∀ s : State, s.rstN = true →
    (∀ l : Lease, s.lease = some l → l.expiry ≤ s.runTime →
      exec .leaseExpiry s = .next
        (State.offerEach { s with lease := none, waiters := Vector.replicate 4 false, step := none }
          (fun q =>
            (if l.holder = q then [authorityRecord .expired s.runTime] else []) ++
            ((if s.waiters[q] then [authorityRecord .free s.runTime] else []) ++
             stepGone s.step s.runTime s.civil)))) ∧
    (∀ l : Lease, s.lease = some l → s.runTime < l.expiry → exec .leaseExpiry s = .next s) ∧
    (s.lease = none → exec .leaseExpiry s = .next s))

/-- R25: a civil-change request of the right length from a port that is not the holder is refused with NOT_HOLDER and
changes nothing. -/
def Obligations.CivilChangeNeedsTheAuthority : Prop :=
  ∀ (s : State) (c : Instr) (p : Port) (tag code : Byte) (args : List Byte),
    requestOf c = some (p, code) → 4 ≤ code.toNat → code.toNat ≤ 8 → requestLength code = some args.length →
    Requested s p tag code args → (∀ l : Lease, s.lease = some l → l.holder ≠ p) →
    exec c s = .next ((s.takeRequest p).respond p tag code (Reply.plain .notHolder))

/-- R6, R26, R27, R38, R39: SET_CIVIL from the holder, with any weekday byte: RANGE for a record that is not well
formed; the first value while UNSET, at which DORMANT entries wake (R100, written out in StepsReachPatternEntries); a step to
the record while VALID. -/
def Obligations.SetCivil : Prop :=
  ∀ (s : State) (p : Port) (tag weekday : Byte) (new : Civil) (l : Lease),
    new.fits → Requested s p tag 0x04 (new.bytes.take 11 ++ [weekday]) → s.lease = some l → l.holder = p →
    let t := s.takeRequest p
    let set : State := { t with civil := some new, slew := none, step := none }
    (new.wellFormed = false → exec (.setCivil p) s = .next (t.respond p tag 0x04 (Reply.plain .range))) ∧
    (new.wellFormed = true →
      (s.civil = none →
        exec (.setCivil p) s = .next
          (((set.wakePatterns new).offerEach
            (fun _ => [changeRecord .set (some p) (some 0) s.runTime (some new)])).respond p tag 0x04
              (Reply.plain .ok))) ∧
      (∀ old : Civil, s.civil = some old →
        exec (.setCivil p) s = .next
          ((((set.offerEach
              (fun _ => slewGone s.slew s.runTime (some new) ++ stepGone s.step s.runTime (some new))).stepPatterns
                old new).offerEach
            (fun _ => [changeRecord .set (some p) (some ((new.count : Int) - (old.count : Int))) s.runTime
              (some new)])).respond p tag 0x04 (Reply.plain .ok))))

/-- R28, R29, R30: STEP_CIVIL from the holder, check by check, and both modes carried out. -/
def Obligations.StepCivil : Prop :=
  ∀ (s : State) (p : Port) (tag mode : Byte) (offset : Int) (l : Lease),
    -(2 ^ 63) ≤ offset → offset < 2 ^ 63 → Requested s p tag 0x05 (signedBytes 8 offset ++ [mode]) →
    s.lease = some l → l.holder = p →
    let t := s.takeRequest p
    let refused := fun st : Status => exec (.stepCivil p) s = .next (t.respond p tag 0x05 (Reply.plain st))
    (1 < mode.toNat → refused .range) ∧
    (mode.toNat ≤ 1 → s.civil = none → refused .civilUnset) ∧
    (∀ old : Civil, mode.toNat ≤ 1 → s.civil = some old →
      (s.step ≠ none → refused .stepPending) ∧
      (s.step = none → mode = 0 →
        (inCivilRange ((old.count : Int) + offset) = false → refused .range) ∧
        (inCivilRange ((old.count : Int) + offset) = true →
          let new := Civil.ofCount ((old.count : Int) + offset).toNat
          exec (.stepCivil p) s = .next
            ((((({ t with civil := some new, slew := none, step := none } : State).offerEach
                (fun _ => slewGone s.slew s.runTime (some new))).stepPatterns old new).offerEach
              (fun _ => [changeRecord .stepped (some p) (some offset) s.runTime (some new)])).respond p tag 0x05
                (Reply.plain .ok)))) ∧
      (s.step = none → mode = 1 →
        let target := Civil.nextSecond { old with micro := 0 }
        (2199 < target.year ∨ inCivilRange ((target.count : Int) + offset) = false → refused .range) ∧
        (target.year ≤ 2199 → inCivilRange ((target.count : Int) + offset) = true →
          exec (.stepCivil p) s = .next
            (({ t with step := some { offset := offset, requester := p, reached := none } } : State).respond p tag 0x05
              (Reply.plain .accepted)))))

/-- R31, R38: CANCEL_STEP from the holder. -/
def Obligations.CancelStep : Prop :=
  ∀ (s : State) (p : Port) (tag : Byte) (l : Lease), Requested s p tag 0x06 [] → s.lease = some l → l.holder = p →
    let t := s.takeRequest p
    (∀ x : PendingStep, s.step = some x →
      exec (.cancelStep p) s = .next
        ((State.offerEach { t with step := none }
          (fun _ => [changeRecord .stepCancelled (some x.requester) none s.runTime s.civil])).respond p tag 0x06
            (Reply.plain .ok))) ∧
    (s.step = none → exec (.cancelStep p) s = .next (t.respond p tag 0x06 (Reply.plain .wrongState)))

/-- R33: SLEW_CIVIL from the holder. -/
def Obligations.SlewCivil : Prop :=
  ∀ (s : State) (p : Port) (tag : Byte) (offset : Int) (rate : Nat) (l : Lease),
    -(2 ^ 31) ≤ offset → offset < 2 ^ 31 → rate < 65536 →
    Requested s p tag 0x07 (signedBytes 4 offset ++ toBytes 2 rate) → s.lease = some l → l.holder = p →
    let t := s.takeRequest p
    (offset = 0 ∨ 10000000 < offset.natAbs ∨ rate = 0 ∨ 500 < rate →
      exec (.slewCivil p) s = .next (t.respond p tag 0x07 (Reply.plain .range))) ∧
    (offset ≠ 0 → offset.natAbs ≤ 10000000 → 1 ≤ rate → rate ≤ 500 →
      (s.civil = none → exec (.slewCivil p) s = .next (t.respond p tag 0x07 (Reply.plain .civilUnset))) ∧
      (s.civil ≠ none →
        exec (.slewCivil p) s = .next
          (({ t with
              slew := some { remaining := offset, rate := rate, interval := 1000000 / rate, count := 0,
                             requester := p } } : State).respond p tag 0x07
            { status := .ok, resets := false,
              results := signedBytes 4 (match s.slew with
                | some w => w.remaining
                | none => 0) })))

/-- R36, R38, R39, R101: INVALIDATE_CIVIL from the holder. -/
def Obligations.InvalidateCivil : Prop :=
  ∀ (s : State) (p : Port) (tag : Byte) (l : Lease), Requested s p tag 0x08 [] → s.lease = some l → l.holder = p →
    let t := s.takeRequest p
    (s.civil = none → exec (.invalidateCivil p) s = .next (t.respond p tag 0x08 (Reply.plain .civilUnset))) ∧
    (s.civil ≠ none →
      ∃ u : State, exec (.invalidateCivil p) s = .next (u.respond p tag 0x08 (Reply.plain .ok)) ∧
        CivilGone t u
          (slewGone s.slew s.runTime none ++ stepGone s.step s.runTime none ++
            [changeRecord .invalidated (some p) none s.runTime none]))

/-! ### Requests in general -/

/-- R185, R186: taking a request removes the FIFO's head and counts it; its response joins the pending ones as the
newest, with the tag, the code, the status and the results; nothing else changes. -/
def Obligations.RequestTakenAndAnswered : Prop :=
  ∀ (s : State) (p : Port) (tag code : Byte) (r : Reply),
    SameBlocks s (s.takeRequest p) ∧ (∀ q : Port, q ≠ p → (s.takeRequest p).port q = s.port q) ∧
    (s.takeRequest p).port p =
      { s.port p with link := { s.link p with
          fifo := (s.link p).fifo.tail, requestsExecuted := (s.link p).requestsExecuted + 1 } } ∧
    SameBlocks s (s.respond p tag code r) ∧ (∀ q : Port, q ≠ p → (s.respond p tag code r).port q = s.port q) ∧
    (s.respond p tag code r).port p =
      { s.port p with link := { s.link p with
          responses := (s.link p).responses ++
            [{ payload := [tag, code, r.status.code] ++ r.results, resets := r.resets }] } }

/-- R185, R190: a port takes no request while its FIFO is empty, while 4 of its responses are pending, or while a PORT_RESET
awaits its reset; R186, R194, Table 10-9: an argument field of another length than the request's is answered MALFORMED
and changes nothing else. -/
def Obligations.RequestWaitsOrIsMalformed : Prop :=
  (∀ (s : State) (c : Instr) (p : Port), (c = .unknownRequest p ∨ ∃ code, requestOf c = some (p, code)) →
    s.rstN = true →
    ((s.link p).fifo = [] ∨ 4 ≤ (s.link p).responses.length ∨ (s.link p).resetAwaited = true) → exec c s = .next s) ∧
  (∀ (s : State) (c : Instr) (p : Port) (tag code : Byte) (args : List Byte) (n : Nat),
    requestOf c = some (p, code) → requestLength code = some n → args.length ≠ n → Requested s p tag code args →
    exec c s = .next ((s.takeRequest p).respond p tag code (Reply.plain .malformed)))

/-- R186: a payload shorter than 2 bytes, and a code that is not one of the 24. -/
def Obligations.UnknownRequest : Prop :=
  ∀ (s : State) (p : Port), s.rstN = true → (s.link p).responses.length < 4 → (s.link p).resetAwaited = false →
    ((s.link p).fifo.head? = some [] →
      exec (.unknownRequest p) s = .next ((s.takeRequest p).respond p 0x00 0x00 (Reply.plain .malformed))) ∧
    (∀ tag : Byte, (s.link p).fifo.head? = some [tag] →
      exec (.unknownRequest p) s = .next ((s.takeRequest p).respond p tag 0x00 (Reply.plain .malformed))) ∧
    (∀ (tag code : Byte) (args : List Byte), (s.link p).fifo.head? = some (tag :: code :: args) →
      code.toNat ≠ 0x10 → requestLength code = none →
      exec (.unknownRequest p) s = .next ((s.takeRequest p).respond p tag code (Reply.plain .unknownRequest)))

/-! ### The schedule table -/

/-- R50 steps 1 and 2, R51 to R55, R194, Table 10-10: every argument in its range is taken as it was sent, the width of an
action other than PULSE and the remaining count of ONCE whatever they are, and nothing else is taken: a field of another
length than the kind, the line action flag and the presence mask ask for is MALFORMED, and every other field that is not
taken is RANGE, an unnamed flag bit among them (notes/assumptions/24, deduced). -/
def Obligations.CreateArguments : Prop :=
  (∀ (a : CreateArgs) (given width : Nat), a.inRange given → width < 4294967296 →
    (∀ x w, a.action = some x → x.action = .pulse w → width = w) →
    decodeCreate (a.argument given width) = .ok a) ∧
  (∀ (args : List Byte) (a : CreateArgs), decodeCreate args = .ok a →
    ∃ given width : Nat, a.inRange given ∧ width < 4294967296 ∧
      (∀ x w, a.action = some x → x.action = .pulse w → width = w) ∧ args = a.argument given width) ∧
  (∀ args : List Byte,
    let kind := (args.getD 0 0).toNat
    let body := 9 + if (args.getD 1 0).getLsbD 0 then 6 else 0
    let fields := ((List.range 6).filter (fun i => (args.getD body 0).getLsbD i)).length
    let length := match kind with
      | 0 => body + 8
      | 1 => body + 12
      | 2 => body + 6 + fields
      | _ => body + 6
    (decodeCreate args = .error .malformed ↔ args.length < 9 ∨ (kind ≤ 3 ∧ args.length ≠ length)) ∧
    (∀ st : Status, decodeCreate args = .error st → st = .malformed ∨ st = .range)) ∧
  (∀ n v : Nat, (toBytes n v).length = n ∧ ∀ i : Nat, i < n → (toBytes n v)[i]? = some (BitVec.ofNat 8 (v / 256 ^ i)))

/-- R49, R50, R54, R93: the checks of CREATE_ENTRY in their order; a refused creation changes nothing but the port's FIFO, count and
responses. -/
def Obligations.CreateEntryRefused : Prop :=
  ∀ (s : State) (p : Port) (tag : Byte) (args : List Byte), Requested s p tag 0x10 args →
    let refused := fun st : Status =>
      exec (.createEntry p) s = .next ((s.takeRequest p).respond p tag 0x10 (Reply.plain st))
    (∀ st : Status, decodeCreate args = .error st → refused st) ∧
    (∀ a : CreateArgs, decodeCreate args = .ok a →
      let impossible := ∃ pat next policy skips, a.timing = .pattern pat next policy skips ∧ pat.impossible = true
      let lineLost := ∃ x, a.action = some x ∧ s.ownsLine p x.line = false
      let inputLost := ∃ i delay rearm due, a.timing = .afterCapture i delay rearm due ∧ s.ownsInput p i = false
      let full := 8 ≤ s.heldBy p ∧ 32 ≤ s.poolUse
      (impossible → refused .neverMatches) ∧
      (¬impossible → lineLost → refused .lineNotOwned) ∧
      (¬impossible → ¬lineLost → inputLost → refused .inputNotOwned) ∧
      (¬impossible → ¬lineLost → ¬inputLost → full → refused .quotaExceeded) ∧
      (¬impossible → ¬lineLost → ¬full →
        ∀ pat next policy skips c, a.timing = .pattern pat next policy skips → s.civil = some c →
          pat.atOrAfter c = none → refused .neverMatches))

/-- R43, R52 to R55, R67: a creation that passes every check takes the lowest FREE id, increments its generation, counts
in the owner's held count, takes the state of its kind and is answered with its handle. -/
def Obligations.CreateEntry : Prop :=
  ∀ (s : State) (p : Port) (tag : Byte) (args : List Byte) (a : CreateArgs) (id : EntryId),
    Requested s p tag 0x10 args → decodeCreate args = .ok a →
    (∀ x, a.action = some x → s.ownsLine p x.line = true) → (s.heldBy p < 8 ∨ s.poolUse < 32) →
    (s.slot id).entry = none → (∀ j : EntryId, j < id → (s.slot j).entry ≠ none) →
    let e : Entry := { owner := p, state := .suspended, timing := a.timing, remaining := a.remaining,
                       action := a.action, notify := a.notify, tag := a.tag }
    let t := (s.takeRequest p).allocate id e
    let made := fun u : State =>
      exec (.createEntry p) s = .next
        (u.respond p tag 0x10
          { status := .ok, results := [BitVec.ofNat 8 id.val, (s.slot id).gen + 1], resets := false })
    match a.timing with
    | .once due => made (t.armMono id e due (due < s.runTime))
    | .periodic due _ _ _ => made (t.armMono id e due (due < s.runTime))
    | .pattern pat _ _ _ =>
      pat.impossible = false →
        (s.civil = none → made (t.park id e .dormant)) ∧
        (∀ c m : Civil, s.civil = some c → pat.atOrAfter c = some m → made (t.armCivil id e m))
    | .afterCapture i _ _ _ => s.ownsInput p i = true → made (t.park id e .waiting)

/-- R43, R45, R47, R48, R67, R68, R97: what allocating, arming, parking and freeing an entry change, the timing that each
writes among it; R66, R67, R96, R97: an insertion adds one position, in its place by due or next match and then id, and leaves the others as they were. -/
def Obligations.TableAndListOperations : Prop :=
  (∀ (s : State) (id : EntryId) (e : Entry),
    (let t := s.allocate id e
     SlotSet s t id { gen := (s.slot id).gen + 1, entry := some e } ∧
     HeldSet s t e.owner (s.heldBy e.owner + 1) ∧ SameLists s t ∧ SameOutsideTable s t) ∧
    (∀ (due : Nat) (late : Bool),
      let t := s.armMono id e due late
      SlotSet s t id
        { gen := (s.slot id).gen, entry := some { e with state := .armed, timing := e.timing.withDue due } } ∧
      t.mono = insertMono { id := id, due := due, late := late } (s.mono.filter (fun x => x.id != id)) ∧
      t.civils = s.civils.filter (fun x => x.id != id) ∧
      t.held = s.held ∧ t.poolUse = s.poolUse ∧ SameOutsideTable s t) ∧
    (∀ next : Civil,
      let t := s.armCivil id e next
      SlotSet s t id
        { gen := (s.slot id).gen, entry := some { e with state := .armed, timing := e.timing.withNext next } } ∧
      t.mono = s.mono.filter (fun x => x.id != id) ∧
      t.civils = insertCivil { id := id, next := next } (s.civils.filter (fun x => x.id != id)) ∧
      t.held = s.held ∧ t.poolUse = s.poolUse ∧ SameOutsideTable s t) ∧
    (∀ st : EntryState,
      let t := s.park id e st
      SlotSet s t id
        { gen := (s.slot id).gen, entry := some { e with state := st, timing := e.timing.disarmed } } ∧
      t.mono = s.mono.filter (fun x => x.id != id) ∧ t.civils = s.civils.filter (fun x => x.id != id) ∧
      t.held = s.held ∧ t.poolUse = s.poolUse ∧ SameOutsideTable s t) ∧
    ((s.slot id).entry = some e →
      let t := s.freeEntry id
      SlotSet s t id { gen := (s.slot id).gen, entry := none } ∧
      t.mono = s.mono.filter (fun x => x.id != id) ∧ t.civils = s.civils.filter (fun x => x.id != id) ∧
      HeldSet s t e.owner (s.heldBy e.owner - 1) ∧ SameOutsideTable s t)) ∧
  ((∀ d d' due : Nat, ∀ first period skips delay, ∀ (i : Input) (rearm : Bool) (old : Option Nat),
      (Timing.once d).withDue due = .once due ∧
      (Timing.periodic d' first period skips).withDue due = .periodic due first period skips ∧
      (Timing.afterCapture i delay rearm old).withDue due = .afterCapture i delay rearm (some due) ∧
      (Timing.once d).disarmed = .once d ∧
      (Timing.periodic d' first period skips).disarmed = .periodic d' first period skips ∧
      (Timing.afterCapture i delay rearm old).disarmed = .afterCapture i delay rearm none) ∧
    (∀ (pat : Pattern) (next : Option Civil) (policy : SkipPolicy) (skips : Nat) (m : Civil),
      (Timing.pattern pat next policy skips).withNext m = .pattern pat (some m) policy skips ∧
      (Timing.pattern pat next policy skips).disarmed = .pattern pat none policy skips)) ∧
  ((∀ (x : MonoPos) (xs : List MonoPos), xs.Pairwise (fun a b => a.before b = true) →
    (∀ y ∈ xs, y.id ≠ x.id) →
    (insertMono x xs).Perm (x :: xs) ∧ (insertMono x xs).Pairwise (fun a b => a.before b = true) ∧
    (insertMono x xs).filter (fun y => y.id != x.id) = xs) ∧
  (∀ (x : CivilPos) (xs : List CivilPos), xs.Pairwise (fun a b => a.before b = true) →
    (∀ y ∈ xs, y.id ≠ x.id) →
    (insertCivil x xs).Perm (x :: xs) ∧ (insertCivil x xs).Pairwise (fun a b => a.before b = true) ∧
    (insertCivil x xs).filter (fun y => y.id != x.id) = xs))

/-- R49: with the counts as R48 keeps them, a creation that passes the quota check finds a FREE slot. -/
def Obligations.QuotaFindsAFreeSlot : Prop :=
  ∀ (s : State) (p : Port), CountsOk s → (s.heldBy p < 8 ∨ s.poolUse < 32) →
    ∃ id : EntryId, (s.slot id).entry = none ∧ s.lowestFree = some id ∧ ∀ j : EntryId, j < id → (s.slot j).entry ≠ none

/-- R44: the checks of the four requests that carry an entry handle; a refused one changes nothing but the port's FIFO,
count and responses. -/
def Obligations.EntryHandleChecks : Prop :=
  ∀ (s : State) (c : Instr) (p : Port) (tag code : Byte) (args : List Byte),
    requestOf c = some (p, code) → (code = 0x11 ∨ code = 0x13 ∨ code = 0x14 ∨ code = 0x15) →
    Requested s p tag code args →
    let refused := fun st : Status => exec c s = .next ((s.takeRequest p).respond p tag code (Reply.plain st))
    (args.length ≠ 2 → refused .malformed) ∧
    (∀ idByte gen : Byte, args = [idByte, gen] →
      (64 ≤ idByte.toNat → refused .range) ∧
      (∀ id : EntryId, idByte.toNat = id.val →
        ((s.slot id).entry = none ∨ (s.slot id).gen ≠ gen → refused .noEntry) ∧
        (∀ e : Entry, (s.slot id).entry = some e → (s.slot id).gen = gen → e.owner ≠ p → refused .notOwner)))

/-- R57, R58: QUERY_ENTRY answers the entry's record and LIST_ENTRIES the port's entries, and neither changes anything
but the port's FIFO, count and responses. -/
def Obligations.QueryAndListEntries : Prop :=
  (∀ (s : State) (p : Port) (tag : Byte) (id : EntryId) (e : Entry),
    Requested s p tag 0x11 [BitVec.ofNat 8 id.val, (s.slot id).gen] → (s.slot id).entry = some e → e.owner = p →
    exec (.queryEntry p) s = .next
      ((s.takeRequest p).respond p tag 0x11
        { status := .ok, resets := false,
          results :=
            [BitVec.ofNat 8 id.val, (s.slot id).gen, BitVec.ofNat 8 p.val, e.timing.kindCode, e.state.code,
             flagByte [e.action.isSome, e.timing.due.isSome, e.timing.next.isSome]] ++
            toBytes 2 e.remaining ++ [e.notify.code] ++ toBytes 4 e.tag.toNat ++
            (match e.action with
             | some a => a.bytes
             | none => []) ++
            (match e.timing with
             | .once due => toBytes 8 due
             | .periodic due first period skips =>
               toBytes 8 due ++ toBytes 8 first ++ toBytes 4 period ++ toBytes 1 skips
             | .pattern pat next policy skips =>
               pat.bytes ++ [policy.code] ++ toBytes 1 skips ++
               (match next with
                | some m => m.bytes
                | none => [])
             | .afterCapture i delay rearm due =>
               (match due with
                | some d => toBytes 8 d
                | none => []) ++ BitVec.ofNat 8 i.val :: (toBytes 4 delay ++ [boolByte rearm])) })) ∧
  (∀ (s : State) (p : Port) (tag : Byte), Requested s p tag 0x12 [] →
    let ids := (List.finRange 64).filter (fun i => (s.slot i).entry.any (fun e => e.owner == p))
    exec (.listEntries p) s = .next
      ((s.takeRequest p).respond p tag 0x12
        { status := .ok, resets := false,
          results := toBytes 1 ids.length ++ ids.flatMap (fun i =>
            match (s.slot i).entry with
            | some e => [BitVec.ofNat 8 i.val, (s.slot i).gen, e.timing.kindCode, e.state.code]
            | none => []) }))

/-- R45, R59, R60: CANCEL_ENTRY frees the entry from any state without a record; SUSPEND_ENTRY takes it out of its list,
and is refused to an entry that is SUSPENDED. -/
def Obligations.CancelAndSuspendEntry : Prop :=
  ∀ (s : State) (p : Port) (tag : Byte) (id : EntryId) (e : Entry),
    (s.slot id).entry = some e → e.owner = p →
    (Requested s p tag 0x13 [BitVec.ofNat 8 id.val, (s.slot id).gen] →
      exec (.cancelEntry p) s = .next (((s.takeRequest p).freeEntry id).respond p tag 0x13 (Reply.plain .ok))) ∧
    (Requested s p tag 0x14 [BitVec.ofNat 8 id.val, (s.slot id).gen] →
      (e.state = .suspended →
        exec (.suspendEntry p) s = .next ((s.takeRequest p).respond p tag 0x14 (Reply.plain .wrongState))) ∧
      (e.state ≠ .suspended →
        exec (.suspendEntry p) s =
          .next (((s.takeRequest p).park id e .suspended).respond p tag 0x14 (Reply.plain .ok))))

/-- R61, R62, R67: RESUME_ENTRY by kind, and refused to an entry that is not SUSPENDED. -/
def Obligations.ResumeEntry : Prop :=
  ∀ (s : State) (p : Port) (tag : Byte) (id : EntryId) (e : Entry),
    Requested s p tag 0x15 [BitVec.ofNat 8 id.val, (s.slot id).gen] → (s.slot id).entry = some e → e.owner = p →
    let t := s.takeRequest p
    let resumed := fun u : State => exec (.resumeEntry p) s = .next (u.respond p tag 0x15 (Reply.plain .ok))
    (e.state ≠ .suspended →
      exec (.resumeEntry p) s = .next (t.respond p tag 0x15 (Reply.plain .wrongState))) ∧
    (e.state = .suspended →
      match e.timing with
      | .once due => resumed (t.armMono id e due (due < s.runTime))
      | .periodic due _ _ _ => resumed (t.armMono id e due (due < s.runTime))
      | .pattern pat _ _ _ =>
        (s.civil = none → resumed (t.park id e .dormant)) ∧
        (∀ c m : Civil, s.civil = some c → pat.atOrAfter c = some m → resumed (t.armCivil id e m)) ∧
        (∀ c : Civil, s.civil = some c → pat.atOrAfter c = none →
          resumed ((t.offer p (endedRecord s id e .calendarEnd)).freeEntry id))
      | .afterCapture i _ _ _ =>
        (s.ownsInput p i = true → resumed (t.park id e .waiting)) ∧
        (s.ownsInput p i = false →
          exec (.resumeEntry p) s = .next (t.respond p tag 0x15 (Reply.plain .inputNotOwned))))

/-! ### Firing -/

/-- R71, R117, R121, R127, Table 6-2: an entry's line action, or a direct drive, at Line Control.  That a firing never drives
a line of another port is as R127 says, where R88's last sentence has it drive the line when it is taken before that port's
reset; notes/assumptions/27 (model's choice). -/
def Obligations.LineActionAtLineControl : Prop :=
  ∀ (s : State) (owner : Port) (src : Source),
    s.askLine none owner src = (s, { owned := true, overtaken := none }) ∧
    (∀ a : LineAction, s.ownsLine owner a.line = false →
      s.askLine (some a) owner src = (s, { owned := false, overtaken := none })) ∧
    (∀ (a : LineAction) (c : LineClaim), (s.line a.line).claim = some c → c.owner = owner →
      s.askLine (some a) owner src =
        (s.setLine a.line
          { claim := some c
            level := match a.action with
              | .toActive => flipLevel c.idle
              | .toIdle => c.idle
              | .toggle => flipLevel (s.line a.line).level
              | .pulse _ => flipLevel c.idle
            pulse := match a.action with
              | .toActive => none
              | .toIdle => none
              | .toggle => none
              | .pulse w => some { endAt := endInstant s.runTime w, source := src } },
         { owned := true, overtaken := (s.line a.line).pulse.map (fun x => x.source) }))

/-- R71 to R77, Table 4-2: the firing procedure up to its record: the entry leaves its list, the line action is asked
for, the outcome and FINAL are formed, the remaining count is consumed, and the FIRED record is offered by notify mode,
with the carried skips in it, which are cleared when it is. -/
def Obligations.FiringProcedure : Prop :=
  ∀ (s : State) (id : EntryId) (e : Entry) (intended : Intended) (late ends : Bool),
    let asked := (s.unlist id).askLine e.action e.owner (.entry { id := id, gen := (s.slot id).gen })
    let outcome : FiringOutcome := if asked.2.owned = false then .lineNotOwned else if late then .late else .ok
    let final := ends || e.remaining == 1
    let left : Entry := { e with remaining := e.remaining - 1 }
    let carried : Nat := match e.timing with
      | .once _ => 0
      | .periodic _ _ _ skips => skips
      | .pattern _ _ _ skips => skips
      | .afterCapture _ _ _ _ => 0
    let cleared : Timing := match e.timing with
      | .once due => .once due
      | .periodic due first period _ => .periodic due first period 0
      | .pattern pat next policy _ => .pattern pat next policy 0
      | .afterCapture i delay rearm due => .afterCapture i delay rearm due
    let offered := final = true ∨ e.notify = .always ∨ (e.notify = .faultsOnly ∧ outcome ≠ .ok)
    (s.fire id e intended late ends).final = final ∧
    (offered →
      (s.fire id e intended late ends).state =
        asked.1.offer e.owner (.fired
          { handle := { id := id, gen := (s.slot id).gen }, tag := e.tag, intended := intended, fireTime := s.runTime
            civilStamp := s.civil, outcome := outcome, skipped := carried, final := final
            overtaken := asked.2.overtaken }) ∧
      (s.fire id e intended late ends).entry = { left with timing := cleared }) ∧
    (¬offered → (s.fire id e intended late ends).state = asked.1 ∧ (s.fire id e intended late ends).entry = left)

/-- R69, R77 to R83: the head of the MONO due list fires while its due is at or before now, by kind; a PERIODIC entry that
fires late carries the grid instants passed as skips, saturating at 255 (R82).  Its next due lies after now: after a late
firing as R82 forms it, after an on-time firing because that comes less than 100 µs after its due (R79; the number is
notes/assumptions/31, model's choice).  The firing takes off the note that the list's head was reached
(notes/assumptions/29). -/
def Obligations.MonoFiring : Prop :=
  ∀ (s : State) (pos : MonoPos) (rest : List MonoPos), s.rstN = true → s.mono = pos :: rest →
    let u : State := { s with reached := { s.reached with mono := false } }
    (s.runTime < pos.due → exec .monoFiring s = .next s) ∧
    (∀ e : Entry, pos.due ≤ s.runTime → (s.slot pos.id).entry = some e →
      match e.timing with
      | .once _ =>
        exec .monoFiring s = .next ((u.fire pos.id e (.run pos.due) pos.late true).state.freeEntry pos.id)
      | .periodic due first period skips =>
        let n := (s.runTime - first) / period
        let counted : Entry :=
          if pos.late then
            { e with timing := .periodic due first period (min 255 (skips + (n - (pos.due - first) / period))) }
          else e
        let f := u.fire pos.id counted (.run pos.due) pos.late false
        let next := if pos.late then endInstant (first + n * period) period else endInstant pos.due period
        (f.final = true → exec .monoFiring s = .next (f.state.freeEntry pos.id)) ∧
        (f.final = false → exec .monoFiring s = .next (f.state.armMono pos.id f.entry next false)) ∧
        (pos.late = false → 100 ≤ period → s.runTime < pos.due + 100 → pos.due + period < 2 ^ 64 → s.runTime < next) ∧
        (pos.late = true → 100 ≤ period → first ≤ s.runTime → first + n * period + period < 2 ^ 64 → s.runTime < next)
      | .afterCapture input _ rearm _ =>
        let f := u.fire pos.id e (.run pos.due) pos.late (!rearm)
        (f.final = true → exec .monoFiring s = .next (f.state.freeEntry pos.id)) ∧
        (f.final = false → s.ownsInput e.owner input = true →
          exec .monoFiring s = .next (f.state.park pos.id f.entry .waiting)) ∧
        (f.final = false → s.ownsInput e.owner input = false →
          exec .monoFiring s = .next
            ((f.state.offer e.owner (endedRecord s pos.id e .captureLost)).freeEntry pos.id))
      | .pattern _ _ _ _ => True)

/-- R95, R98, R99: the head of the CIVIL due list fires while its next match is at or before the civil time held, and is
re-armed strictly after the match that fired.  The firing takes off the note that the list's head was reached
(notes/assumptions/29). -/
def Obligations.CivilFiring : Prop :=
  ∀ (s : State) (c : Civil) (pos : CivilPos) (rest : List CivilPos), s.rstN = true → s.civil = some c →
    s.civils = pos :: rest →
    let u : State := { s with reached := { s.reached with civil := false } }
    (c.count < pos.next.count → exec .civilFiring s = .next s) ∧
    (∀ (e : Entry) (pat : Pattern) (next : Option Civil) (policy : SkipPolicy) (skips : Nat),
      pos.next.count ≤ c.count → (s.slot pos.id).entry = some e → e.timing = .pattern pat next policy skips →
      let f := u.fire pos.id e (.civil pos.next) false false
      (f.final = true → exec .civilFiring s = .next (f.state.freeEntry pos.id)) ∧
      (∀ m : Civil, f.final = false → pat.strictlyAfter pos.next = some m →
        exec .civilFiring s = .next (f.state.armCivil pos.id f.entry m)) ∧
      (f.final = false → pat.strictlyAfter pos.next = none →
        exec .civilFiring s = .next
          ((f.state.offer e.owner (endedRecord s pos.id e .calendarEnd)).freeEntry pos.id)))

/-- R92: a pattern matches an instant exactly when every field present and the microsecond equal the instant's, the weekday
the derived one; R92, R94: the two searches are exact up to the end of 2199. -/
def Obligations.PatternSearchIsExact : Prop :=
  (∀ (pat : Pattern) (c : Civil), pat.matchesAt c = true ↔
    (∀ v : Nat, pat.month = some v → c.month = v) ∧ (∀ v : Nat, pat.day = some v → c.day = v) ∧
    (∀ v : Nat, pat.weekday = some v → c.weekday = v) ∧ (∀ v : Nat, pat.hour = some v → c.hour = v) ∧
    (∀ v : Nat, pat.minute = some v → c.minute = v) ∧ (∀ v : Nat, pat.second = some v → c.second = v) ∧
    c.micro = pat.micro) ∧
  (∀ (pat : Pattern) (x : Civil), pat.inRange = true → x.wellFormed = true →
    (∀ m : Civil, pat.atOrAfter x = some m →
      m.wellFormed = true ∧ pat.matchesAt m = true ∧ x.count ≤ m.count ∧
      ∀ y : Civil, y.wellFormed = true → pat.matchesAt y = true → x.count ≤ y.count → m.count ≤ y.count) ∧
    (pat.atOrAfter x = none →
      ∀ y : Civil, y.wellFormed = true → pat.matchesAt y = true → y.count < x.count) ∧
    (∀ m : Civil, pat.strictlyAfter x = some m →
      m.wellFormed = true ∧ pat.matchesAt m = true ∧ x.count < m.count ∧
      ∀ y : Civil, y.wellFormed = true → pat.matchesAt y = true → x.count < y.count → m.count ≤ y.count) ∧
    (pat.strictlyAfter x = none →
      ∀ y : Civil, y.wellFormed = true → pat.matchesAt y = true → y.count ≤ x.count))

/-- R102 to R105: one ARMED PATTERN entry at a forward and at a backward step; a zero step leaves everything as it is; R102:
the count of a forward step is the number of matches from the next match on and earlier than new, at most 255; R100: the
first set of civil time takes every id in ascending order, arms or ends the DORMANT PATTERN entry that it finds, and leaves
every other slot's. -/
def Obligations.StepsReachPatternEntries : Prop :=
  (∀ (s : State) (old new : Civil),
    (old.count < new.count →
      s.stepPatterns old new =
        (s.civils.filter (fun x => x.next.count < new.count)).foldl (fun t x => t.passOver new x) s) ∧
    (new.count < old.count → s.stepPatterns old new = s.civils.foldl (fun t x => t.placeBack new x) s) ∧
    (old.count = new.count → s.stepPatterns old new = s)) ∧
  (∀ (s : State) (new : Civil) (pos : CivilPos) (e : Entry) (pat : Pattern) (next : Option Civil)
      (policy : SkipPolicy) (skips : Nat),
    (s.slot pos.id).entry = some e → e.timing = .pattern pat next policy skips →
    let placed := fun (t u : State) (e' : Entry) (k : State → Prop) =>
      (∀ m : Civil, pat.atOrAfter new = some m → t = u.armCivil pos.id e' m) ∧
      (pat.atOrAfter new = none → k t)
    let count := pat.passedMatches pos.next new
    let skipped : Entry := { e with timing := .pattern pat next policy (min 255 (skips + count)) }
    let caught : Entry := { e with timing := .pattern pat next policy (min 255 (skips + (count - 1))) }
    let f := s.fire pos.id caught (.civil pos.next) true false
    placed (s.placeBack new pos) s e
      (fun t => t = (s.offer e.owner (endedRecord s pos.id e .calendarEnd)).freeEntry pos.id) ∧
    (policy = .skip →
      placed (s.passOver new pos) s skipped
        (fun t => t = (s.offer e.owner (endedRecord s pos.id e .calendarEnd)).freeEntry pos.id)) ∧
    (policy = .catchUp →
      (f.final = true → s.passOver new pos = f.state.freeEntry pos.id) ∧
      (f.final = false →
        placed (s.passOver new pos) f.state f.entry
          (fun t => t = (f.state.offer e.owner (endedRecord s pos.id e .calendarEnd)).freeEntry pos.id)))) ∧
  (∀ (pat : Pattern) (m new : Civil), pat.inRange = true → m.wellFormed = true → pat.matchesAt m = true →
    new.wellFormed = true → m.count < new.count →
    pat.passedMatches m new =
      min 255 ((List.range' m.count (new.count - m.count)).countP (fun n => pat.matchesAt (Civil.ofCount n)))) ∧
  (∀ (s : State) (now : Civil),
    s.wakePatterns now = (List.finRange 64).foldl (fun t id => t.wake now id) s ∧
    ∀ id : EntryId,
      (∀ (e : Entry) (pat : Pattern) (next : Option Civil) (policy : SkipPolicy) (skips : Nat),
        (s.slot id).entry = some e → e.state = .dormant → e.timing = .pattern pat next policy skips →
        (∀ m : Civil, pat.atOrAfter now = some m → s.wake now id = s.armCivil id e m) ∧
        (pat.atOrAfter now = none →
          s.wake now id = (s.offer e.owner (endedRecord s id e .calendarEnd)).freeEntry id)) ∧
      ((∀ e : Entry, (s.slot id).entry = some e →
          e.state ≠ .dormant ∨ ∀ pat next policy skips, e.timing ≠ .pattern pat next policy skips) →
        s.wake now id = s))

/-! ### Lines and inputs -/

/-- R112, R113, R114: CLAIM_LINE, by the owner of the line; R113, R115: RELEASE_LINE; R113, R120: DRIVE_LINE, with source
DIRECT. -/
def Obligations.LineRequests : Prop :=
  (∀ (s : State) (p : Port) (tag lineByte idleByte : Byte), Requested s p tag 0x20 [lineByte, idleByte] →
    let t := s.takeRequest p
    (8 ≤ lineByte.toNat ∨ 1 < idleByte.toNat →
      exec (.claimLine p) s = .next (t.respond p tag 0x20 (Reply.plain .range))) ∧
    (∀ (l : Line) (idle : Level), lineByte.toNat = l.val → idleByte = levelCode idle →
      let granted := exec (.claimLine p) s = .next
        ((t.setLine l { claim := some { owner := p, idle := idle }, level := idle, pulse := none }).respond p tag 0x20
          (Reply.plain .ok))
      ((s.line l).claim = none → granted) ∧
      (∀ c : LineClaim, (s.line l).claim = some c → c.owner = p → granted) ∧
      (∀ c : LineClaim, (s.line l).claim = some c → c.owner ≠ p →
        exec (.claimLine p) s = .next
          (t.respond p tag 0x20 { status := .held, results := [BitVec.ofNat 8 c.owner.val], resets := false })))) ∧
  ((∀ (s : State) (p : Port) (tag lineByte : Byte), Requested s p tag 0x21 [lineByte] →
    let t := s.takeRequest p
    (8 ≤ lineByte.toNat → exec (.releaseLine p) s = .next (t.respond p tag 0x21 (Reply.plain .range))) ∧
    (∀ l : Line, lineByte.toNat = l.val →
      (s.ownsLine p l = true →
        exec (.releaseLine p) s = .next
          ((t.setLine l { claim := none, level := .low, pulse := none }).respond p tag 0x21 (Reply.plain .ok))) ∧
      (s.ownsLine p l = false →
        exec (.releaseLine p) s = .next (t.respond p tag 0x21 (Reply.plain .notOwner))))) ∧
  (∀ (s : State) (p : Port) (tag lineByte actionByte : Byte) (width : Nat), width < 4294967296 →
    Requested s p tag 0x22 (lineByte :: actionByte :: toBytes 4 width) →
    let t := s.takeRequest p
    (8 ≤ lineByte.toNat ∨ 3 < actionByte.toNat ∨ (actionByte = 3 ∧ (width = 0 ∨ 1000000 < width)) →
      exec (.driveLine p) s = .next (t.respond p tag 0x22 (Reply.plain .range))) ∧
    (∀ (l : Line) (a : Action), lineByte.toNat = l.val →
      ((actionByte = 0 ∧ a = .toActive) ∨ (actionByte = 1 ∧ a = .toIdle) ∨ (actionByte = 2 ∧ a = .toggle) ∨
        (actionByte = 3 ∧ a = .pulse width ∧ 1 ≤ width ∧ width ≤ 1000000)) →
      (s.ownsLine p l = false → exec (.driveLine p) s = .next (t.respond p tag 0x22 (Reply.plain .notOwner))) ∧
      (s.ownsLine p l = true →
        let asked := t.askLine (some { line := l, action := a }) p .direct
        exec (.driveLine p) s = .next
          (asked.1.respond p tag 0x22
            { status := .ok, resets := false,
              results := levelCode (asked.1.line l).level :: sourceBytes ((s.line l).pulse.map (fun x => x.source)) })))))

/-- R118, R119: the end of a pulse, taken once run time has come to it and only for a pending end. -/
def Obligations.PulseEndEvent : Prop :=
  ∀ (s : State) (l : Line) (c : LineClaim), s.rstN = true → (s.line l).claim = some c →
    (∀ x : PulseEnd, (s.line l).pulse = some x → x.endAt ≤ s.runTime →
      exec (.pulseEnd l) s = .next (s.setLine l { claim := some c, level := c.idle, pulse := none })) ∧
    (∀ x : PulseEnd, (s.line l).pulse = some x → s.runTime < x.endAt → exec (.pulseEnd l) s = .next s) ∧
    ((s.line l).pulse = none → exec (.pulseEnd l) s = .next s)

/-- R131, R132: CLAIM_INPUT, by the owner of the input; R131, R133: RELEASE_INPUT ends the owner's WAITING and SUSPENDED
entries on the input in id order and releases it. -/
def Obligations.InputRequests : Prop :=
  (∀ (s : State) (p : Port) (tag inputByte modeByte : Byte) (holdoff : Nat), holdoff < 65536 →
    Requested s p tag 0x28 (inputByte :: modeByte :: toBytes 2 holdoff) →
    let t := s.takeRequest p
    (4 ≤ inputByte.toNat ∨ 2 < modeByte.toNat →
      exec (.claimInput p) s = .next (t.respond p tag 0x28 (Reply.plain .range))) ∧
    (∀ (i : Input) (mode : EdgeMode), inputByte.toNat = i.val →
      ((modeByte = 0 ∧ mode = .rising) ∨ (modeByte = 1 ∧ mode = .falling) ∨ (modeByte = 2 ∧ mode = .both)) →
      ((s.input i).claim = none →
        exec (.claimInput p) s = .next
          ((t.setInput i
            { claim := some { owner := p, mode := mode, holdoff := holdoff, holdoffEnd := none, suppressed := 0 }
              seen := (s.input i).seen }).respond p tag 0x28 { status := .ok, results := [0, 0, 0], resets := false })) ∧
      (∀ c : InputClaim, (s.input i).claim = some c → c.owner = p →
        exec (.claimInput p) s = .next
          ((t.setInput i
            { claim := some { c with mode := mode, holdoff := holdoff }, seen := (s.input i).seen }).respond p tag 0x28
              { status := .ok, resets := false,
                results := (if c.holdoffEnd = none then 0 else 1) :: toBytes 2 c.suppressed })) ∧
      (∀ c : InputClaim, (s.input i).claim = some c → c.owner ≠ p →
        exec (.claimInput p) s = .next
          (t.respond p tag 0x28 { status := .held, results := [BitVec.ofNat 8 c.owner.val], resets := false })))) ∧
  (∀ (s : State) (p : Port) (tag inputByte : Byte), Requested s p tag 0x29 [inputByte] →
    let t := s.takeRequest p
    (4 ≤ inputByte.toNat → exec (.releaseInput p) s = .next (t.respond p tag 0x29 (Reply.plain .range))) ∧
    (∀ i : Input, inputByte.toNat = i.val →
      (s.ownsInput p i = false →
        exec (.releaseInput p) s = .next (t.respond p tag 0x29 (Reply.plain .notOwner))) ∧
      (s.ownsInput p i = true →
        let ids := (List.finRange 64).filter (fun id => (s.slot id).entry.any (fun e =>
          e.owner == p && (e.state == .waiting || e.state == .suspended) &&
          match e.timing with
          | .afterCapture j _ _ _ => j == i
          | _ => false))
        let ended := ids.foldl (fun u id =>
          match (s.slot id).entry with
          | some e => (u.offer p (endedRecord s id e .captureLost)).freeEntry id
          | none => u) t
        exec (.releaseInput p) s = .next
          ((ended.setInput i { claim := none, seen := (s.input i).seen }).respond p tag 0x29
            { status := .ok, results := toBytes 1 ids.length, resets := false }))))

/-- R130, R135 to R138, Table 7-2: an edge on an input, by its owner, its mode and its state. -/
def Obligations.CaptureEdge : Prop :=
  ∀ (s : State) (i : Input) (level : Level), s.rstN = true →
    let seen := s.setInput i { s.input i with seen := some level }
    ((s.input i).seen = some level → exec (.captureEdge i level) s = .next s) ∧
    ((s.input i).seen = some (flipLevel level) →
      ((s.input i).claim = none → exec (.captureEdge i level) s = .next seen) ∧
      (∀ c : InputClaim, (s.input i).claim = some c →
        let pol : Polarity := match level with
          | .high => .rising
          | .low => .falling
        (c.mode.accepts pol = false → exec (.captureEdge i level) s = .next seen) ∧
        (c.mode.accepts pol = true → c.holdoffEnd ≠ none →
          exec (.captureEdge i level) s = .next
            (seen.setInput i { claim := some { c with suppressed := min 65535 (c.suppressed + 1) }, seen := some level })) ∧
        (c.mode.accepts pol = true → c.holdoffEnd = none →
          let ids := (List.finRange 64).filter (fun id => (s.slot id).entry.any (fun e =>
            e.owner == c.owner && e.state == .waiting &&
            match e.timing with
            | .afterCapture j _ _ _ => j == i
            | _ => false))
          let record : Record := .capture
            { input := i, polarity := pol, runStamp := s.runTime, civilStamp := s.civil, suppressed := c.suppressed,
              armed := ids.length }
          let armed := ids.foldl (fun u id =>
            match (s.slot id).entry with
            | some e =>
              match e.timing with
              | .afterCapture _ delay _ _ => u.armMono id e (endInstant s.runTime delay) false
              | _ => u
            | none => u) (seen.offer c.owner record)
          exec (.captureEdge i level) s = .next
            (armed.setInput i
              { claim := some { c with
                  suppressed := 0
                  holdoffEnd := if c.holdoff = 0 then none else some (endInstant s.runTime c.holdoff) }
                seen := some level }))))

/-- R139: the holdoff expiry, taken once run time has come to the holdoff end and only in HOLDOFF. -/
def Obligations.HoldoffExpiry : Prop :=
  ∀ (s : State) (i : Input) (c : InputClaim), s.rstN = true → (s.input i).claim = some c →
    (∀ t : Nat, c.holdoffEnd = some t → t ≤ s.runTime →
      exec (.holdoffExpiry i) s = .next
        (s.setInput i { claim := some { c with holdoffEnd := none }, seen := (s.input i).seen })) ∧
    (∀ t : Nat, c.holdoffEnd = some t → s.runTime < t → exec (.holdoffExpiry i) s = .next s) ∧
    (c.holdoffEnd = none → exec (.holdoffExpiry i) s = .next s)

/-! ### Queues and delivery -/

/-- R147, R148, R150, R163: an offer to a port's queue, the first case that applies deciding, and the handing of a frame
for a record that arrives in the empty queue of an IDLE engine. -/
def Obligations.OfferOfARecord : Prop :=
  ∀ (s : State) (p : Port) (r : Record),
    let ps := s.port p
    let masked :=
      (∃ x, r = .timeChange x ∧ ps.queue.timeChangeOn = false) ∨ (∃ x, r = .peerReset x ∧ ps.queue.peerResetOn = false)
    SameBlocks s (s.offer p r) ∧ (∀ q : Port, q ≠ p → (s.offer p r).port q = s.port q) ∧
    (masked → (s.offer p r).port p = ps) ∧
    (¬masked → 16 ≤ ps.queue.records.length →
      (s.offer p r).port p =
        { ps with queue := { ps.queue with
            pendingLost := min 255 (ps.queue.pendingLost + 1), lostTotal := ps.queue.lostTotal + 1 } }) ∧
    (¬masked → ps.queue.records.length < 16 →
      (s.offer p r).port p =
        { ps with
          queue := { ps.queue with
            records := ps.queue.records ++
              [{ seq := ps.queue.nextSeq, lostBefore := ps.queue.pendingLost, record := r }]
            nextSeq := ps.queue.nextSeq + 1, pendingLost := 0 }
          engine :=
            if ps.queue.records = [] ∧ ps.engine.state = .idle then
              { ps.engine with state := .awaitAck, attempts := 0, frame := .queued }
            else ps.engine })

/-- R164, R172: the arbiter of a free line starts the oldest pending response, otherwise the NOTE frame of the head in the
port's epoch, its record laid out by kind as Table 10-14 gives it; R164, R172, R190: the end of a transmission frees the
line; the engine's own NOTE frame starts the ack timer, the response of a PORT_RESET resets the port; R173: a frame that a
break has cut does neither (that its end is named by the frame's own end command is notes/assumptions/18, model's choice). -/
def Obligations.TransmitArbiter : Prop :=
  (∀ (s : State) (p : Port), s.rstN = true →
    let ps := s.port p
    let civil : Option Civil → List Byte := fun c => match c with
      | some x => x.bytes
      | none => []
    let kindAndPart : Nat → Record → List Byte := fun lost r => match r with
      | .fired f =>
        [(1 : Byte)] ++ toBytes 1 lost ++ [BitVec.ofNat 8 f.handle.id.val, f.handle.gen] ++ toBytes 4 f.tag.toNat ++
        (match f.intended with
         | .run t => [flagByte [false, f.civilStamp.isSome, f.final]] ++ toBytes 8 t
         | .civil c => [flagByte [true, f.civilStamp.isSome, f.final]] ++ c.bytes) ++
        toBytes 8 f.fireTime ++ civil f.civilStamp ++
        [match f.outcome with
         | .ok => 0
         | .late => 1
         | .lineNotOwned => 2] ++ toBytes 1 f.skipped ++
        (match f.overtaken with
         | none => [0]
         | some (.entry h) => [1, BitVec.ofNat 8 h.id.val, h.gen]
         | some .direct => [2])
      | .entryEnded x =>
        [(2 : Byte)] ++ toBytes 1 lost ++ [BitVec.ofNat 8 x.handle.id.val, x.handle.gen] ++ toBytes 4 x.tag.toNat ++
        [match x.reason with
         | .captureLost => 0
         | .calendarEnd => 1] ++ toBytes 8 x.runTime
      | .capture x =>
        [(3 : Byte)] ++ toBytes 1 lost ++ [BitVec.ofNat 8 x.input.val, (match x.polarity with
         | .rising => 0
         | .falling => 1), flagByte [x.civilStamp.isSome]] ++ toBytes 8 x.runStamp ++ civil x.civilStamp ++
        toBytes 2 x.suppressed ++ toBytes 1 x.armed
      | .authority x =>
        [(4 : Byte)] ++ toBytes 1 lost ++ [match x.reason with
         | .expired => 0
         | .free => 1] ++ toBytes 8 x.runTime
      | .timeChange x =>
        [(5 : Byte)] ++ toBytes 1 lost ++ [(match x.reason with
         | .set => 0
         | .stepped => 1
         | .stepCancelled => 2
         | .slewDone => 3
         | .slewCancelled => 4
         | .invalidated => 5), (match x.cause with
         | .request => 0
         | .calendarEnd => 1), flagByte [x.requester.isSome, x.offset.isSome, x.civilAfter.isSome]] ++
        (match x.requester with
         | some q => [BitVec.ofNat 8 q.val]
         | none => []) ++
        (match x.offset with
         | some v => signedBytes 8 v
         | none => []) ++ toBytes 8 x.runTime ++ civil x.civilAfter
      | .peerReset x =>
        [(6 : Byte)] ++ toBytes 1 lost ++ [BitVec.ofNat 8 x.port.val] ++ toBytes 1 x.entries ++ toBytes 1 x.lines ++
        toBytes 1 x.inputs ++ toBytes 8 x.runTime
    (ps.link.tx ≠ none → exec (.transmitStart p) s = .next s) ∧
    (∀ (r : Response) (rest : List Response), ps.link.tx = none → ps.link.responses = r :: rest →
      exec (.transmitStart p) s = .next
        (s.setPort p { ps with link := { ps.link with
          responses := rest, tx := some (.response (frameBytes 0x81 r.payload) r.resets) } })) ∧
    (∀ (q : Queued) (rest : List Queued), ps.link.tx = none → ps.link.responses = [] → ps.engine.frame = .queued →
      ps.queue.records = q :: rest →
      exec (.transmitStart p) s = .next
        (s.setPort p { ps with
          engine := { ps.engine with frame := .onWire }
          link := { ps.link with
            tx := some (.note (frameBytes 0x82 (ps.queue.epoch :: (toBytes 2 q.seq.toNat ++ kindAndPart q.lostBefore q.record))) true) } })) ∧
    (ps.link.tx = none → ps.link.responses = [] → ps.engine.frame ≠ .queued → exec (.transmitStart p) s = .next s)) ∧
  (∀ (s : State) (p : Port), s.rstN = true →
    let ps := s.port p
    let free : Link := { ps.link with tx := none }
    (∀ bytes : List Byte, ps.link.tx = some (.note bytes true) →
      (ps.engine.state = .awaitAck ∨ ps.engine.state = .backoff) →
      exec (.noteTransmissionEnd p) s = .next
        (s.setPort p { ps with
          link := free
          engine := { ps.engine with
            state := .awaitAck, frame := .absent
            ackEnd := some (endInstant s.runTime (ps.engine.config.ackTimeout * 1000)) } })) ∧
    (∀ bytes : List Byte, ps.link.tx = some (.note bytes false) →
      exec (.noteTransmissionEnd p) s = .next (s.setPort p { ps with link := free })) ∧
    (∀ bytes : List Byte, ps.link.tx = some (.response bytes false) →
      exec (.responseTransmissionEnd p) s = .next (s.setPort p { ps with link := free })) ∧
    (∀ bytes : List Byte, ps.link.tx = some (.response bytes true) →
      exec (.responseTransmissionEnd p) s = .next ((s.setPort p { ps with link := free }).resetPort p false)) ∧
    (∀ bytes : List Byte, ps.link.tx = some (.cut bytes true) →
      exec (.noteTransmissionEnd p) s = .next (s.setPort p { ps with link := free })) ∧
    (∀ bytes : List Byte, ps.link.tx = some (.cut bytes false) →
      exec (.responseTransmissionEnd p) s = .next (s.setPort p { ps with link := free })))

/-- R154, R165, R166, R169, R175: the oldest ACK frame handed to the engine either removes the head or is counted as stale; a
stale one resumes a STALLED engine, and changes nothing else where it meets the ack timeout that stalled the engine at one
instant, as R175 says and R166 and R169 do not except (notes/assumptions/28, model's choice). -/
def Obligations.AckFrame : Prop :=
  ∀ (s : State) (p : Port) (payload : List Byte) (later : List (List Byte)), s.rstN = true →
    (s.link p).acks = payload :: later →
    let ps := s.port p
    let link : Link := { ps.link with acks := later }
    (∀ (q : Queued) (rest : List Queued), ps.queue.records = q :: rest → ps.engine.state ≠ .idle →
      payload = ps.queue.epoch :: toBytes 2 q.seq.toNat →
      exec (.ackFrame p) s = .next
        (s.setPort p
          { queue := { ps.queue with records := rest }
            engine := { ps.engine with
              state := if rest = [] then .idle else .awaitAck
              stalledAt := none
              attempts := 0
              frame := if rest = [] then .absent else .queued
              ackEnd := none, backoffEnd := none, delivered := ps.engine.delivered + 1 }
            link := { link with
              tx := match ps.link.tx with
                | some (.note bytes _) => some (.note bytes false)
                | other => other } })) ∧
    ((ps.engine.state = .idle ∨ ps.queue.records = [] ∨
        ∃ q rest, ps.queue.records = q :: rest ∧ payload ≠ ps.queue.epoch :: toBytes 2 q.seq.toNat) →
      (ps.engine.state ≠ .stalled ∨ ps.engine.stalledAt = some s.runTime →
        exec (.ackFrame p) s = .next
          (s.setPort p { ps with link := link, engine := { ps.engine with staleAcks := ps.engine.staleAcks + 1 } })) ∧
      (ps.engine.state = .stalled → ps.engine.stalledAt ≠ some s.runTime →
        exec (.ackFrame p) s = .next
          (s.setPort p { ps with
            link := link
            engine := { ps.engine with
              staleAcks := ps.engine.staleAcks + 1, state := .awaitAck, stalledAt := none, attempts := 0
              frame := .queued
              retransmissions := ps.engine.retransmissions + 1 } })))

/-- R167, R168, R170: the expiries of the ack timer and of the backoff timer, each taken once run time has come to its
instant.  The run time of a stall is noted for R175 (notes/assumptions/28). -/
def Obligations.DeliveryTimers : Prop :=
  ∀ (s : State) (p : Port) (t : Nat), s.rstN = true →
    let ps := s.port p
    let e := ps.engine
    (e.ackEnd = some t → s.runTime < t → exec (.ackTimeout p) s = .next s) ∧
    (e.ackEnd = some t → t ≤ s.runTime →
      (e.attempts + 1 ≤ e.config.retryLimit →
        exec (.ackTimeout p) s = .next
          (s.setPort p { ps with engine := { e with
            state := .backoff, attempts := e.attempts + 1, ackEnd := none
            backoffEnd := some (endInstant s.runTime
              (e.config.ackTimeout * 2 ^ (min e.attempts e.config.backoffCap) * 1000)) } })) ∧
      (e.config.retryLimit < e.attempts + 1 → e.config.stall = .keep →
        exec (.ackTimeout p) s = .next
          (s.setPort p { ps with engine := { e with
            state := .stalled, stalledAt := some s.runTime, attempts := e.attempts + 1, ackEnd := none } })) ∧
      (e.config.retryLimit < e.attempts + 1 → e.config.stall = .release →
        exec (.ackTimeout p) s = .next (s.resetPort p false))) ∧
    (e.backoffEnd = some t → s.runTime < t → exec (.backoffExpiry p) s = .next s) ∧
    (e.backoffEnd = some t → t ≤ s.runTime →
      exec (.backoffExpiry p) s = .next
        (s.setPort p { ps with engine := { e with
          frame := .queued, backoffEnd := none, retransmissions := e.retransmissions + 1 } }))

/-- R148, R171: SET_PORT_CONFIG checks its five items and replaces them at once; running timers keep their ends. -/
def Obligations.SetPortConfig : Prop :=
  ∀ (s : State) (p : Port) (tag timeout limit cap stall mask : Byte),
    Requested s p tag 0x30 [timeout, limit, cap, stall, mask] →
    let t := s.takeRequest p
    (timeout = 0 ∨ 15 < limit.toNat ∨ 7 < cap.toNat ∨ 1 < stall.toNat ∨ 3 < mask.toNat →
      exec (.setPortConfig p) s = .next (t.respond p tag 0x30 (Reply.plain .range))) ∧
    (timeout ≠ 0 → limit.toNat ≤ 15 → cap.toNat ≤ 7 → stall.toNat ≤ 1 → mask.toNat ≤ 3 →
      exec (.setPortConfig p) s = .next
        ((t.setPort p { t.port p with
          engine := { (s.port p).engine with config :=
            { ackTimeout := timeout.toNat, retryLimit := limit.toNat, backoffCap := cap.toNat
              stall := if stall = 0 then .keep else .release } }
          queue := { (s.port p).queue with
            timeChangeOn := mask.getLsbD 0, peerResetOn := mask.getLsbD 1 } }).respond p tag 0x30 (Reply.plain .ok)))

/-! ### Links -/

/-- R179: a frame is SYNC, LEN, TYPE and payload, and the CRC over all but SYNC, low byte first; the receiver's check
passes exactly when the two CRC bytes are those of the bytes before them.  The CRC takes the bytes in order and each byte's
bits from bit 7 down to bit 0. -/
def Obligations.FramesAndTheirCrc : Prop :=
  (∀ (type : Byte) (payload : List Byte),
    let body := BitVec.ofNat 8 (payload.length + 1) :: type :: payload
    frameBytes type payload = Config.sync :: (body ++ [(crc body).setWidth 8, (crc body >>> 8).setWidth 8])) ∧
  crc [] = 0xFFFF ∧
  (∀ (bytes : List Byte) (b : Byte), crc (bytes ++ [b]) = crcByte (crc bytes) b) ∧
  (∀ (r : Word16) (b : Byte), crcByte r b =
    crcBit (crcBit (crcBit (crcBit (crcBit (crcBit (crcBit (crcBit r (b.getLsbD 7)) (b.getLsbD 6)) (b.getLsbD 5))
      (b.getLsbD 4)) (b.getLsbD 3)) (b.getLsbD 2)) (b.getLsbD 1)) (b.getLsbD 0)) ∧
  (∀ (r : Word16) (bit : Bool), crcBit r bit = (r <<< 1) ^^^ (if (r.getLsbD 15 ^^ bit) then 0x1021 else 0)) ∧
  (∀ (len : Byte) (body : List Byte) (low high : Byte), body.length = len.toNat →
    (crcRight len (body ++ [low, high]) = true ↔ crc (len :: body) = high ++ low))

/-- R178, R180, R181, R184: the start bit of a character, and the end of one that ends no frame, the LEN byte out of range
among them (R183).  That a character has these two moments, and that a moment named out of place changes nothing, is
notes/assumptions/12, 13 and 1; that the end of a character at space tells since when the line is there is
notes/assumptions/14. -/
def Obligations.CharactersReceived : Prop :=
  ∀ (s : State) (p : Port) (b : Byte), s.rstN = true →
    let l := s.link p
    let after := fun (moment : CharMoment) (x : Link) =>
      exec (.characterReceived p b moment) s = .next (s.setPort p { s.port p with link := x })
    (l.rx ≠ .waitMark → l.spaceSince = none → l.arriving = none →
      after .starts { l with spaceSince := some s.runTime, arriving := some s.runTime }) ∧
    (l.rx = .waitMark ∨ l.spaceSince ≠ none ∨ l.arriving ≠ none → after .starts l) ∧
    (l.arriving = none → after .endsAtMark l ∧ ∀ t : Nat, after (.endsAtSpace t) l) ∧
    (∀ start : Nat, l.arriving = some start →
      let idle : Link := { l with spaceSince := none, arriving := none }
      (l.rx = .hunt → b = 0xA5 → after .endsAtMark { idle with rx := .length s.runTime }) ∧
      (l.rx = .hunt → b ≠ 0xA5 → after .endsAtMark idle) ∧
      (∀ g : Nat, l.rx = .length g →
        (1 ≤ b.toNat → b.toNat ≤ 200 → after .endsAtMark { idle with rx := .body b [] s.runTime }) ∧
        (b.toNat = 0 ∨ 200 < b.toNat →
          let faulted : Link :=
            { idle with
              rx := .hunt
              faults := { kind := if l.faults.count = 0 then .badLength else l.faults.kind
                          count := min 255 (l.faults.count + 1) } }
          after .endsAtMark faulted ∧
          exec (.lengthFault p b) s = .next (s.setPort p { s.port p with link := faulted }))) ∧
      (∀ (len : Byte) (chars : List Byte) (g : Nat), l.rx = .body len chars g → chars.length + 1 < len.toNat + 2 →
        after .endsAtMark { idle with rx := .body len (chars ++ [b]) s.runTime }) ∧
      (∀ t : Nat, start ≤ t → t ≤ s.runTime → (b = 0 → t = start) →
        let low : Link := { l with spaceSince := some t, arriving := none }
        (l.rx = .hunt → after (.endsAtSpace t) low) ∧
        (∀ g : Nat, l.rx = .length g → after (.endsAtSpace t) { low with rx := .length s.runTime }) ∧
        (∀ (len : Byte) (chars : List Byte) (g : Nat), l.rx = .body len chars g →
          after (.endsAtSpace t) { low with rx := .body len chars s.runTime })) ∧
      (∀ t : Nat, t < start ∨ s.runTime < t ∨ (b = 0 ∧ t ≠ start) → after (.endsAtSpace t) l))

/-- R182, R183, R169: the last character of a frame: the checks of CRC, TYPE and room in their order, and what an
accepted frame does; a STALLED engine resumes at a REQUEST frame whether or not it finds room.  That FRAME_COMPLETE and
CHARACTER_RECEIVED name one event is notes/assumptions/12 (deduced). -/
def Obligations.FrameComplete : Prop :=
  ∀ (s : State) (p : Port) (b len : Byte) (chars : List Byte) (g start : Nat), s.rstN = true →
    (s.link p).rx = .body len chars g → chars.length + 1 = len.toNat + 2 → (s.link p).arriving = some start →
    let ps := s.port p
    let whole := chars ++ [b]
    let type := whole.getD 0 0
    let payload := (whole.take len.toNat).drop 1
    let hunting : Link := { ps.link with spaceSince := none, arriving := none, rx := .hunt }
    let faulted := fun k : FaultKind => ({ hunting with
      faults := { kind := if ps.link.faults.count = 0 then k else ps.link.faults.kind
                  count := min 255 (ps.link.faults.count + 1) } } : Link)
    let resumed : Engine :=
      if ps.engine.state = .stalled then
        { ps.engine with state := .awaitAck, stalledAt := none, attempts := 0, frame := .queued,
                         retransmissions := ps.engine.retransmissions + 1 }
      else ps.engine
    let after := fun x : PortState =>
      exec (.frameComplete p b) s = .next (s.setPort p x) ∧
      exec (.characterReceived p b .endsAtMark) s = .next (s.setPort p x)
    (crcRight len whole = false → after { ps with link := faulted .badCrc }) ∧
    (crcRight len whole = true → type ≠ 0x01 → type ≠ 0x02 → after { ps with link := faulted .badType }) ∧
    (crcRight len whole = true → type = 0x02 →
      after { ps with link := { hunting with
        acks := ps.link.acks ++ [payload], framesAccepted := ps.link.framesAccepted + 1 } }) ∧
    (crcRight len whole = true → type = 0x01 → ps.link.fifo.length < 4 →
      after { ps with
        engine := resumed
        link := { hunting with
          fifo := ps.link.fifo ++ [payload], framesAccepted := ps.link.framesAccepted + 1 } }) ∧
    (crcRight len whole = true → type = 0x01 → 4 ≤ ps.link.fifo.length →
      after { ps with engine := resumed, link := faulted .fifoFull })

/-- R180, R181, R183, R184: the gap expiry, which a start bit in time ends; the break, 2,000 µs after the line's change to
space and not sooner; the return of the receive line to mark.  How the line's changes are known is notes/assumptions/13 and
14; that an expiry named out of its time changes nothing is notes/assumptions/1 (model's choice). -/
def Obligations.GapBreakAndMark : Prop :=
  ∀ (s : State) (p : Port), s.rstN = true →
    let l := s.link p
    let after := fun (c : Instr) (x : Link) => exec c s = .next (s.setPort p { s.port p with link := x })
    (∀ g : Nat, (l.rx = .length g ∨ ∃ len chars, l.rx = .body len chars g) →
      (g + 1000 < s.runTime → l.arriving = none →
        after (.gapExpiry p) { l with
          rx := .hunt
          faults := { kind := if l.faults.count = 0 then .truncated else l.faults.kind
                      count := min 255 (l.faults.count + 1) } }) ∧
      (s.runTime ≤ g + 1000 ∨ l.arriving ≠ none → exec (.gapExpiry p) s = .next s)) ∧
    (l.rx = .hunt ∨ l.rx = .waitMark → exec (.gapExpiry p) s = .next s) ∧
    (∀ t : Nat, l.spaceSince = some t →
      (t + 2000 ≤ s.runTime → exec (.breakSeen p) s = .next (s.resetPort p true)) ∧
      (s.runTime < t + 2000 → exec (.breakSeen p) s = .next s)) ∧
    (l.spaceSince = none → exec (.breakSeen p) s = .next s) ∧
    (l.ok → l.rx = .waitMark → exec (.breakSeen p) s = .next s) ∧
    (l.rx = .waitMark → after (.receiveLineAtMark p) { l with rx := .hunt, spaceSince := none }) ∧
    (l.rx ≠ .waitMark → after (.receiveLineAtMark p) { l with spaceSince := none })

/-- R161, R177, R188: the results of GET_PORT_STATUS, counted with the request being answered; R190, R153: PORT_RESET is
answered with the epoch its reset will set, and from then on the port takes no request. -/
def Obligations.GetPortStatusAndPortReset : Prop :=
  (∀ (s : State) (p : Port) (tag : Byte), Requested s p tag 0x31 [] →
    let q := (s.port p).queue
    let e := (s.port p).engine
    let l := s.link p
    exec (.getPortStatus p) s = .next
      ((s.takeRequest p).respond p tag 0x31
        { status := .ok, resets := false,
          results :=
            [e.state.code] ++ toBytes 1 e.attempts ++ toBytes 1 e.config.ackTimeout ++ toBytes 1 e.config.retryLimit ++
            toBytes 1 e.config.backoffCap ++ [e.config.stall.code, flagByte [q.timeChangeOn, q.peerResetOn]] ++
            toBytes 1 q.records.length ++
            (match q.records with
             | h :: _ => toBytes 2 h.seq.toNat
             | [] => []) ++
            toBytes 2 q.nextSeq.toNat ++ toBytes 1 q.pendingLost ++ [q.epoch, l.faults.kind.code] ++
            toBytes 1 l.faults.count ++ [if 2 ≤ l.faults.count then (1 : Byte) else 0] ++
            toBytes 1 (l.fifo.length - 1) ++ toBytes 1 l.responses.length ++
            toBytes 4 l.framesAccepted.toNat ++ toBytes 4 (l.requestsExecuted + 1).toNat ++
            toBytes 4 e.staleAcks.toNat ++ toBytes 4 e.retransmissions.toNat ++ toBytes 4 e.delivered.toNat ++
            toBytes 4 q.lostTotal.toNat })) ∧
  (∀ (s : State) (p : Port) (tag : Byte), Requested s p tag 0x34 [] →
    ∃ t : State,
      t = (s.takeRequest p).respond p tag 0x34
        { status := .ok, results := [(s.port p).queue.epoch + 1], resets := true } ∧
      exec (.portReset p) s = .next t ∧ (t.link p).resetAwaited = true)

/-- R189: CLEAR_FAULTS and GET_INFO. -/
def Obligations.ClearFaultsAndGetInfo : Prop :=
  ∀ (s : State) (p : Port) (tag : Byte) (args : List Byte),
    let t := s.takeRequest p
    (Requested s p tag 0x32 args →
      (args ≠ [] → exec (.clearFaults p) s = .next (t.respond p tag 0x32 (Reply.plain .malformed))) ∧
      (args = [] →
        exec (.clearFaults p) s = .next
          ((t.setPort p { t.port p with link := { t.link p with faults := { kind := .noFault, count := 0 } } }).respond
            p tag 0x32 (Reply.plain .ok)))) ∧
    (Requested s p tag 0x33 args →
      (args ≠ [] → exec (.getInfo p) s = .next (t.respond p tag 0x33 (Reply.plain .malformed))) ∧
      (args = [] →
        exec (.getInfo p) s = .next
          (t.respond p tag 0x33
            { status := .ok, results := [0x74, 0x0A, 0x01, 4, 64, 8, 32, 8, 4, 16, 4], resets := false })))

/-- R17, R23, R65, R127, R143, R158, R159, R173, R174, R191: a port reset, at its own port and in every shared block; the
order of PEER_RESET and the authority's records at another port is open (notes/assumptions/5).  The ACK frames handed over
are kept (notes/assumptions/15, deduced); after a break the line stays busy with the cut frame until its end is named
(notes/assumptions/18, model's choice); the character under way and the space level are the line's own and stay after a
reset by another cause (notes/assumptions/25, deduced); the note of the heads reached stays (notes/assumptions/29). -/
def Obligations.PortResetEffects : Prop :=
  ∀ (s : State) (p : Port) (brk : Bool),
    let t := s.resetPort p brk
    let own := fun id : EntryId => (s.slot id).entry.any (fun e => e.owner == p)
    let entries := ((List.finRange 64).filter own).length
    let lines := ((List.finRange 8).filter (fun l => s.ownsLine p l)).length
    let inputs := ((List.finRange 4).filter (fun i => s.ownsInput p i)).length
    let peer : Record :=
      .peerReset { port := p, entries := entries, lines := lines, inputs := inputs, runTime := s.runTime }
    let ending := fun q : Port =>
      if s.holds p then
        (if s.waiters[q] then [authorityRecord .free s.runTime] else []) ++ stepGone s.step s.runTime s.civil
      else []
    (t.port p).queue =
      { records := [], nextSeq := 0, pendingLost := 0, epoch := (s.port p).queue.epoch + 1, timeChangeOn := true,
        peerResetOn := true, lostTotal := 0 } ∧
    (t.port p).engine = Engine.reset ∧
    t.link p =
      { Link.reset with
        rx := if brk then .waitMark else .hunt
        spaceSince := if brk then none else (s.link p).spaceSince
        arriving := if brk then none else (s.link p).arriving
        acks := (s.link p).acks
        tx := match (s.link p).tx with
          | some (.response bytes _) => some (if brk then .cut bytes false else .response bytes false)
          | some (.note bytes _) => some (if brk then .cut bytes true else .note bytes false)
          | some (.cut bytes isNote) => some (.cut bytes isNote)
          | none => none } ∧
    (∀ q : Port, q ≠ p →
      t.port q = (s.port q).offerList (peer :: ending q) ∨ t.port q = (s.port q).offerList (ending q ++ [peer])) ∧
    (∀ id : EntryId, t.slot id = if own id then { gen := (s.slot id).gen, entry := none } else s.slot id) ∧
    t.mono = s.mono.filter (fun x => !own x.id) ∧ t.civils = s.civils.filter (fun x => !own x.id) ∧
    (CountsOk s → HeldSet s t p 0) ∧
    (∀ l : Line, t.line l = if s.ownsLine p l then { claim := none, level := .low, pulse := none } else s.line l) ∧
    (∀ i : Input, t.input i = if s.ownsInput p i then { claim := none, seen := (s.input i).seen } else s.input i) ∧
    (s.holds p = true → t.lease = none ∧ (∀ q : Port, t.waiters[q] = false) ∧ t.step = none) ∧
    (s.holds p = false →
      t.lease = s.lease ∧ t.waiters[p] = false ∧ (∀ q : Port, q ≠ p → t.waiters[q] = s.waiters[q]) ∧ t.step = s.step) ∧
    SameClock s t ∧ t.civil = s.civil ∧ t.slew = s.slew ∧ t.reached = s.reached ∧ t.pending = s.pending

/-! ### Invariants that every step keeps -/

/-- Every invariant holds of the machine right after reset. -/
def Obligations.InvariantsAtReset : Prop :=
  AuthorityOk State.reset ∧ CorrectionsOk State.reset ∧ TimeOk State.reset ∧ PinsOk State.reset ∧
  PortsOk State.reset ∧ ListsOk State.reset ∧ ValidityOk State.reset ∧ CountsOk State.reset ∧ ResetOk State.reset

/-- R18, R19, R22. -/
def Obligations.AuthorityInvariant : Prop :=
  ∀ s t : State, AuthorityOk s → step s = .next t → AuthorityOk t

/-- R5, R6, R13, R28, R30, R33, R34: civil time is always well formed, and the corrections in hand are always ones that
their requests admitted. -/
def Obligations.CivilTimeInvariant : Prop :=
  ∀ s t : State, CorrectionsOk s → TimeOk s → step s = .next t → CorrectionsOk t ∧ TimeOk t

/-- R111, R112, R118, R129, R130. -/
def Obligations.PinsInvariant : Prop :=
  ∀ s t : State, PinsOk s → step s = .next t → PinsOk t

/-- R146, R152, R162, R163, R164, R180, R183, R185: queue, engine, arbiter and receiver of every port. -/
def Obligations.PortsInvariant : Prop :=
  ∀ s t : State, PortsOk s → step s = .next t → PortsOk t

/-- R42, R47, R48, R66, R96, R97, R100, R101: the schedule table, its counts and the two due lists agree. -/
def Obligations.ScheduleInvariant : Prop :=
  ∀ s t : State, ListsOk s → ValidityOk s → CountsOk s → step s = .next t → ListsOk t ∧ ValidityOk t ∧ CountsOk t

end Statements
end

