-- ==== Sys2Proof/Laws/State.lean ====
section
/-! SUPPORT. What each setter of the state does to each field, one lemma a field, and what the accessors read after it.
-/

namespace Sys2Proof.Machine

/-! ### `setPort` -/

@[simp] theorem State.setPort_rstN (s : State) (p : Port) (x : PortState) :
    (s.setPort p x).rstN = s.rstN := rfl

@[simp] theorem State.setPort_rate1 (s : State) (p : Port) (x : PortState) :
    (s.setPort p x).rate1 = s.rate1 := rfl

@[simp] theorem State.setPort_rate0 (s : State) (p : Port) (x : PortState) :
    (s.setPort p x).rate0 = s.rate0 := rfl

@[simp] theorem State.setPort_runTime (s : State) (p : Port) (x : PortState) :
    (s.setPort p x).runTime = s.runTime := rfl

@[simp] theorem State.setPort_refclkCycles (s : State) (p : Port) (x : PortState) :
    (s.setPort p x).refclkCycles = s.refclkCycles := rfl

@[simp] theorem State.setPort_civil (s : State) (p : Port) (x : PortState) :
    (s.setPort p x).civil = s.civil := rfl

@[simp] theorem State.setPort_slew (s : State) (p : Port) (x : PortState) :
    (s.setPort p x).slew = s.slew := rfl

@[simp] theorem State.setPort_step (s : State) (p : Port) (x : PortState) :
    (s.setPort p x).step = s.step := rfl

@[simp] theorem State.setPort_lease (s : State) (p : Port) (x : PortState) :
    (s.setPort p x).lease = s.lease := rfl

@[simp] theorem State.setPort_waiters (s : State) (p : Port) (x : PortState) :
    (s.setPort p x).waiters = s.waiters := rfl

@[simp] theorem State.setPort_slots (s : State) (p : Port) (x : PortState) :
    (s.setPort p x).slots = s.slots := rfl

@[simp] theorem State.setPort_held (s : State) (p : Port) (x : PortState) :
    (s.setPort p x).held = s.held := rfl

@[simp] theorem State.setPort_poolUse (s : State) (p : Port) (x : PortState) :
    (s.setPort p x).poolUse = s.poolUse := rfl

@[simp] theorem State.setPort_mono (s : State) (p : Port) (x : PortState) :
    (s.setPort p x).mono = s.mono := rfl

@[simp] theorem State.setPort_civils (s : State) (p : Port) (x : PortState) :
    (s.setPort p x).civils = s.civils := rfl

@[simp] theorem State.setPort_lines (s : State) (p : Port) (x : PortState) :
    (s.setPort p x).lines = s.lines := rfl

@[simp] theorem State.setPort_inputs (s : State) (p : Port) (x : PortState) :
    (s.setPort p x).inputs = s.inputs := rfl

@[simp] theorem State.setPort_ports (s : State) (p : Port) (x : PortState) :
    (s.setPort p x).ports = s.ports.set p x := rfl

@[simp] theorem State.setPort_reached (s : State) (p : Port) (x : PortState) :
    (s.setPort p x).reached = s.reached := rfl

@[simp] theorem State.setPort_freeCount (s : State) (p : Port) (x : PortState) :
    (s.setPort p x).freeCount = s.freeCount := rfl

@[simp] theorem State.setPort_pending (s : State) (p : Port) (x : PortState) :
    (s.setPort p x).pending = s.pending := rfl

@[simp] theorem State.setPort_slot (s : State) (p : Port) (x : PortState) (j : EntryId) : (s.setPort p x).slot j = s.slot j := rfl

@[simp] theorem State.setPort_line (s : State) (p : Port) (x : PortState) (j : Line) : (s.setPort p x).line j = s.line j := rfl

@[simp] theorem State.setPort_input (s : State) (p : Port) (x : PortState) (j : Input) : (s.setPort p x).input j = s.input j := rfl

@[simp] theorem State.setPort_heldBy (s : State) (p : Port) (x : PortState) (j : Port) : (s.setPort p x).heldBy j = s.heldBy j := rfl

/-! ### `setSlot` -/

@[simp] theorem State.setSlot_rstN (s : State) (i : EntryId) (x : Slot) :
    (s.setSlot i x).rstN = s.rstN := rfl

@[simp] theorem State.setSlot_rate1 (s : State) (i : EntryId) (x : Slot) :
    (s.setSlot i x).rate1 = s.rate1 := rfl

@[simp] theorem State.setSlot_rate0 (s : State) (i : EntryId) (x : Slot) :
    (s.setSlot i x).rate0 = s.rate0 := rfl

@[simp] theorem State.setSlot_runTime (s : State) (i : EntryId) (x : Slot) :
    (s.setSlot i x).runTime = s.runTime := rfl

@[simp] theorem State.setSlot_refclkCycles (s : State) (i : EntryId) (x : Slot) :
    (s.setSlot i x).refclkCycles = s.refclkCycles := rfl

@[simp] theorem State.setSlot_civil (s : State) (i : EntryId) (x : Slot) :
    (s.setSlot i x).civil = s.civil := rfl

@[simp] theorem State.setSlot_slew (s : State) (i : EntryId) (x : Slot) :
    (s.setSlot i x).slew = s.slew := rfl

@[simp] theorem State.setSlot_step (s : State) (i : EntryId) (x : Slot) :
    (s.setSlot i x).step = s.step := rfl

@[simp] theorem State.setSlot_lease (s : State) (i : EntryId) (x : Slot) :
    (s.setSlot i x).lease = s.lease := rfl

@[simp] theorem State.setSlot_waiters (s : State) (i : EntryId) (x : Slot) :
    (s.setSlot i x).waiters = s.waiters := rfl

@[simp] theorem State.setSlot_slots (s : State) (i : EntryId) (x : Slot) :
    (s.setSlot i x).slots = s.slots.set i x := rfl

@[simp] theorem State.setSlot_held (s : State) (i : EntryId) (x : Slot) :
    (s.setSlot i x).held = s.held := rfl

@[simp] theorem State.setSlot_poolUse (s : State) (i : EntryId) (x : Slot) :
    (s.setSlot i x).poolUse = s.poolUse := rfl

@[simp] theorem State.setSlot_mono (s : State) (i : EntryId) (x : Slot) :
    (s.setSlot i x).mono = s.mono := rfl

@[simp] theorem State.setSlot_civils (s : State) (i : EntryId) (x : Slot) :
    (s.setSlot i x).civils = s.civils := rfl

@[simp] theorem State.setSlot_lines (s : State) (i : EntryId) (x : Slot) :
    (s.setSlot i x).lines = s.lines := rfl

@[simp] theorem State.setSlot_inputs (s : State) (i : EntryId) (x : Slot) :
    (s.setSlot i x).inputs = s.inputs := rfl

@[simp] theorem State.setSlot_ports (s : State) (i : EntryId) (x : Slot) :
    (s.setSlot i x).ports = s.ports := rfl

@[simp] theorem State.setSlot_reached (s : State) (i : EntryId) (x : Slot) :
    (s.setSlot i x).reached = s.reached := rfl

@[simp] theorem State.setSlot_freeCount (s : State) (i : EntryId) (x : Slot) :
    (s.setSlot i x).freeCount = s.freeCount := rfl

@[simp] theorem State.setSlot_pending (s : State) (i : EntryId) (x : Slot) :
    (s.setSlot i x).pending = s.pending := rfl

@[simp] theorem State.setSlot_port (s : State) (i : EntryId) (x : Slot) (j : Port) : (s.setSlot i x).port j = s.port j := rfl

@[simp] theorem State.setSlot_line (s : State) (i : EntryId) (x : Slot) (j : Line) : (s.setSlot i x).line j = s.line j := rfl

@[simp] theorem State.setSlot_input (s : State) (i : EntryId) (x : Slot) (j : Input) : (s.setSlot i x).input j = s.input j := rfl

@[simp] theorem State.setSlot_heldBy (s : State) (i : EntryId) (x : Slot) (j : Port) : (s.setSlot i x).heldBy j = s.heldBy j := rfl

@[simp] theorem State.setSlot_link (s : State) (i : EntryId) (x : Slot) (j : Port) : (s.setSlot i x).link j = s.link j := rfl

/-! ### `setLine` -/

@[simp] theorem State.setLine_rstN (s : State) (l : Line) (x : LineState) :
    (s.setLine l x).rstN = s.rstN := rfl

@[simp] theorem State.setLine_rate1 (s : State) (l : Line) (x : LineState) :
    (s.setLine l x).rate1 = s.rate1 := rfl

@[simp] theorem State.setLine_rate0 (s : State) (l : Line) (x : LineState) :
    (s.setLine l x).rate0 = s.rate0 := rfl

@[simp] theorem State.setLine_runTime (s : State) (l : Line) (x : LineState) :
    (s.setLine l x).runTime = s.runTime := rfl

@[simp] theorem State.setLine_refclkCycles (s : State) (l : Line) (x : LineState) :
    (s.setLine l x).refclkCycles = s.refclkCycles := rfl

@[simp] theorem State.setLine_civil (s : State) (l : Line) (x : LineState) :
    (s.setLine l x).civil = s.civil := rfl

@[simp] theorem State.setLine_slew (s : State) (l : Line) (x : LineState) :
    (s.setLine l x).slew = s.slew := rfl

@[simp] theorem State.setLine_step (s : State) (l : Line) (x : LineState) :
    (s.setLine l x).step = s.step := rfl

@[simp] theorem State.setLine_lease (s : State) (l : Line) (x : LineState) :
    (s.setLine l x).lease = s.lease := rfl

@[simp] theorem State.setLine_waiters (s : State) (l : Line) (x : LineState) :
    (s.setLine l x).waiters = s.waiters := rfl

@[simp] theorem State.setLine_slots (s : State) (l : Line) (x : LineState) :
    (s.setLine l x).slots = s.slots := rfl

@[simp] theorem State.setLine_held (s : State) (l : Line) (x : LineState) :
    (s.setLine l x).held = s.held := rfl

@[simp] theorem State.setLine_poolUse (s : State) (l : Line) (x : LineState) :
    (s.setLine l x).poolUse = s.poolUse := rfl

@[simp] theorem State.setLine_mono (s : State) (l : Line) (x : LineState) :
    (s.setLine l x).mono = s.mono := rfl

@[simp] theorem State.setLine_civils (s : State) (l : Line) (x : LineState) :
    (s.setLine l x).civils = s.civils := rfl

@[simp] theorem State.setLine_lines (s : State) (l : Line) (x : LineState) :
    (s.setLine l x).lines = s.lines.set l x := rfl

@[simp] theorem State.setLine_inputs (s : State) (l : Line) (x : LineState) :
    (s.setLine l x).inputs = s.inputs := rfl

@[simp] theorem State.setLine_ports (s : State) (l : Line) (x : LineState) :
    (s.setLine l x).ports = s.ports := rfl

@[simp] theorem State.setLine_reached (s : State) (l : Line) (x : LineState) :
    (s.setLine l x).reached = s.reached := rfl

@[simp] theorem State.setLine_freeCount (s : State) (l : Line) (x : LineState) :
    (s.setLine l x).freeCount = s.freeCount := rfl

@[simp] theorem State.setLine_pending (s : State) (l : Line) (x : LineState) :
    (s.setLine l x).pending = s.pending := rfl

@[simp] theorem State.setLine_port (s : State) (l : Line) (x : LineState) (j : Port) : (s.setLine l x).port j = s.port j := rfl

@[simp] theorem State.setLine_slot (s : State) (l : Line) (x : LineState) (j : EntryId) : (s.setLine l x).slot j = s.slot j := rfl

@[simp] theorem State.setLine_input (s : State) (l : Line) (x : LineState) (j : Input) : (s.setLine l x).input j = s.input j := rfl

@[simp] theorem State.setLine_heldBy (s : State) (l : Line) (x : LineState) (j : Port) : (s.setLine l x).heldBy j = s.heldBy j := rfl

@[simp] theorem State.setLine_link (s : State) (l : Line) (x : LineState) (j : Port) : (s.setLine l x).link j = s.link j := rfl

/-! ### `setInput` -/

@[simp] theorem State.setInput_rstN (s : State) (i : Input) (x : InputState) :
    (s.setInput i x).rstN = s.rstN := rfl

@[simp] theorem State.setInput_rate1 (s : State) (i : Input) (x : InputState) :
    (s.setInput i x).rate1 = s.rate1 := rfl

@[simp] theorem State.setInput_rate0 (s : State) (i : Input) (x : InputState) :
    (s.setInput i x).rate0 = s.rate0 := rfl

@[simp] theorem State.setInput_runTime (s : State) (i : Input) (x : InputState) :
    (s.setInput i x).runTime = s.runTime := rfl

@[simp] theorem State.setInput_refclkCycles (s : State) (i : Input) (x : InputState) :
    (s.setInput i x).refclkCycles = s.refclkCycles := rfl

@[simp] theorem State.setInput_civil (s : State) (i : Input) (x : InputState) :
    (s.setInput i x).civil = s.civil := rfl

@[simp] theorem State.setInput_slew (s : State) (i : Input) (x : InputState) :
    (s.setInput i x).slew = s.slew := rfl

@[simp] theorem State.setInput_step (s : State) (i : Input) (x : InputState) :
    (s.setInput i x).step = s.step := rfl

@[simp] theorem State.setInput_lease (s : State) (i : Input) (x : InputState) :
    (s.setInput i x).lease = s.lease := rfl

@[simp] theorem State.setInput_waiters (s : State) (i : Input) (x : InputState) :
    (s.setInput i x).waiters = s.waiters := rfl

@[simp] theorem State.setInput_slots (s : State) (i : Input) (x : InputState) :
    (s.setInput i x).slots = s.slots := rfl

@[simp] theorem State.setInput_held (s : State) (i : Input) (x : InputState) :
    (s.setInput i x).held = s.held := rfl

@[simp] theorem State.setInput_poolUse (s : State) (i : Input) (x : InputState) :
    (s.setInput i x).poolUse = s.poolUse := rfl

@[simp] theorem State.setInput_mono (s : State) (i : Input) (x : InputState) :
    (s.setInput i x).mono = s.mono := rfl

@[simp] theorem State.setInput_civils (s : State) (i : Input) (x : InputState) :
    (s.setInput i x).civils = s.civils := rfl

@[simp] theorem State.setInput_lines (s : State) (i : Input) (x : InputState) :
    (s.setInput i x).lines = s.lines := rfl

@[simp] theorem State.setInput_inputs (s : State) (i : Input) (x : InputState) :
    (s.setInput i x).inputs = s.inputs.set i x := rfl

@[simp] theorem State.setInput_ports (s : State) (i : Input) (x : InputState) :
    (s.setInput i x).ports = s.ports := rfl

@[simp] theorem State.setInput_reached (s : State) (i : Input) (x : InputState) :
    (s.setInput i x).reached = s.reached := rfl

@[simp] theorem State.setInput_freeCount (s : State) (i : Input) (x : InputState) :
    (s.setInput i x).freeCount = s.freeCount := rfl

@[simp] theorem State.setInput_pending (s : State) (i : Input) (x : InputState) :
    (s.setInput i x).pending = s.pending := rfl

@[simp] theorem State.setInput_port (s : State) (i : Input) (x : InputState) (j : Port) : (s.setInput i x).port j = s.port j := rfl

@[simp] theorem State.setInput_slot (s : State) (i : Input) (x : InputState) (j : EntryId) : (s.setInput i x).slot j = s.slot j := rfl

@[simp] theorem State.setInput_line (s : State) (i : Input) (x : InputState) (j : Line) : (s.setInput i x).line j = s.line j := rfl

@[simp] theorem State.setInput_heldBy (s : State) (i : Input) (x : InputState) (j : Port) : (s.setInput i x).heldBy j = s.heldBy j := rfl

@[simp] theorem State.setInput_link (s : State) (i : Input) (x : InputState) (j : Port) : (s.setInput i x).link j = s.link j := rfl

/-! ### `setLists` -/

@[simp] theorem State.setLists_rstN (s : State) (m : List MonoPos) (c : List CivilPos) :
    (s.setLists m c).rstN = s.rstN := rfl

@[simp] theorem State.setLists_rate1 (s : State) (m : List MonoPos) (c : List CivilPos) :
    (s.setLists m c).rate1 = s.rate1 := rfl

@[simp] theorem State.setLists_rate0 (s : State) (m : List MonoPos) (c : List CivilPos) :
    (s.setLists m c).rate0 = s.rate0 := rfl

@[simp] theorem State.setLists_runTime (s : State) (m : List MonoPos) (c : List CivilPos) :
    (s.setLists m c).runTime = s.runTime := rfl

@[simp] theorem State.setLists_refclkCycles (s : State) (m : List MonoPos) (c : List CivilPos) :
    (s.setLists m c).refclkCycles = s.refclkCycles := rfl

@[simp] theorem State.setLists_civil (s : State) (m : List MonoPos) (c : List CivilPos) :
    (s.setLists m c).civil = s.civil := rfl

@[simp] theorem State.setLists_slew (s : State) (m : List MonoPos) (c : List CivilPos) :
    (s.setLists m c).slew = s.slew := rfl

@[simp] theorem State.setLists_step (s : State) (m : List MonoPos) (c : List CivilPos) :
    (s.setLists m c).step = s.step := rfl

@[simp] theorem State.setLists_lease (s : State) (m : List MonoPos) (c : List CivilPos) :
    (s.setLists m c).lease = s.lease := rfl

@[simp] theorem State.setLists_waiters (s : State) (m : List MonoPos) (c : List CivilPos) :
    (s.setLists m c).waiters = s.waiters := rfl

@[simp] theorem State.setLists_slots (s : State) (m : List MonoPos) (c : List CivilPos) :
    (s.setLists m c).slots = s.slots := rfl

@[simp] theorem State.setLists_held (s : State) (m : List MonoPos) (c : List CivilPos) :
    (s.setLists m c).held = s.held := rfl

@[simp] theorem State.setLists_poolUse (s : State) (m : List MonoPos) (c : List CivilPos) :
    (s.setLists m c).poolUse = s.poolUse := rfl

@[simp] theorem State.setLists_mono (s : State) (m : List MonoPos) (c : List CivilPos) :
    (s.setLists m c).mono = m := rfl

@[simp] theorem State.setLists_civils (s : State) (m : List MonoPos) (c : List CivilPos) :
    (s.setLists m c).civils = c := rfl

@[simp] theorem State.setLists_lines (s : State) (m : List MonoPos) (c : List CivilPos) :
    (s.setLists m c).lines = s.lines := rfl

@[simp] theorem State.setLists_inputs (s : State) (m : List MonoPos) (c : List CivilPos) :
    (s.setLists m c).inputs = s.inputs := rfl

@[simp] theorem State.setLists_ports (s : State) (m : List MonoPos) (c : List CivilPos) :
    (s.setLists m c).ports = s.ports := rfl

@[simp] theorem State.setLists_reached (s : State) (m : List MonoPos) (c : List CivilPos) :
    (s.setLists m c).reached = s.reached := rfl

@[simp] theorem State.setLists_freeCount (s : State) (m : List MonoPos) (c : List CivilPos) :
    (s.setLists m c).freeCount = s.freeCount := rfl

@[simp] theorem State.setLists_pending (s : State) (m : List MonoPos) (c : List CivilPos) :
    (s.setLists m c).pending = s.pending := rfl

@[simp] theorem State.setLists_port (s : State) (m : List MonoPos) (c : List CivilPos) (j : Port) : (s.setLists m c).port j = s.port j := rfl

@[simp] theorem State.setLists_slot (s : State) (m : List MonoPos) (c : List CivilPos) (j : EntryId) : (s.setLists m c).slot j = s.slot j := rfl

@[simp] theorem State.setLists_line (s : State) (m : List MonoPos) (c : List CivilPos) (j : Line) : (s.setLists m c).line j = s.line j := rfl

@[simp] theorem State.setLists_input (s : State) (m : List MonoPos) (c : List CivilPos) (j : Input) : (s.setLists m c).input j = s.input j := rfl

@[simp] theorem State.setLists_heldBy (s : State) (m : List MonoPos) (c : List CivilPos) (j : Port) : (s.setLists m c).heldBy j = s.heldBy j := rfl

@[simp] theorem State.setLists_link (s : State) (m : List MonoPos) (c : List CivilPos) (j : Port) : (s.setLists m c).link j = s.link j := rfl

/-! ### `setCounts` -/

@[simp] theorem State.setCounts_rstN (s : State) (h : Vector Nat 4) (n : Nat) :
    (s.setCounts h n).rstN = s.rstN := rfl

@[simp] theorem State.setCounts_rate1 (s : State) (h : Vector Nat 4) (n : Nat) :
    (s.setCounts h n).rate1 = s.rate1 := rfl

@[simp] theorem State.setCounts_rate0 (s : State) (h : Vector Nat 4) (n : Nat) :
    (s.setCounts h n).rate0 = s.rate0 := rfl

@[simp] theorem State.setCounts_runTime (s : State) (h : Vector Nat 4) (n : Nat) :
    (s.setCounts h n).runTime = s.runTime := rfl

@[simp] theorem State.setCounts_refclkCycles (s : State) (h : Vector Nat 4) (n : Nat) :
    (s.setCounts h n).refclkCycles = s.refclkCycles := rfl

@[simp] theorem State.setCounts_civil (s : State) (h : Vector Nat 4) (n : Nat) :
    (s.setCounts h n).civil = s.civil := rfl

@[simp] theorem State.setCounts_slew (s : State) (h : Vector Nat 4) (n : Nat) :
    (s.setCounts h n).slew = s.slew := rfl

@[simp] theorem State.setCounts_step (s : State) (h : Vector Nat 4) (n : Nat) :
    (s.setCounts h n).step = s.step := rfl

@[simp] theorem State.setCounts_lease (s : State) (h : Vector Nat 4) (n : Nat) :
    (s.setCounts h n).lease = s.lease := rfl

@[simp] theorem State.setCounts_waiters (s : State) (h : Vector Nat 4) (n : Nat) :
    (s.setCounts h n).waiters = s.waiters := rfl

@[simp] theorem State.setCounts_slots (s : State) (h : Vector Nat 4) (n : Nat) :
    (s.setCounts h n).slots = s.slots := rfl

@[simp] theorem State.setCounts_held (s : State) (h : Vector Nat 4) (n : Nat) :
    (s.setCounts h n).held = h := rfl

@[simp] theorem State.setCounts_poolUse (s : State) (h : Vector Nat 4) (n : Nat) :
    (s.setCounts h n).poolUse = n := rfl

@[simp] theorem State.setCounts_mono (s : State) (h : Vector Nat 4) (n : Nat) :
    (s.setCounts h n).mono = s.mono := rfl

@[simp] theorem State.setCounts_civils (s : State) (h : Vector Nat 4) (n : Nat) :
    (s.setCounts h n).civils = s.civils := rfl

@[simp] theorem State.setCounts_lines (s : State) (h : Vector Nat 4) (n : Nat) :
    (s.setCounts h n).lines = s.lines := rfl

@[simp] theorem State.setCounts_inputs (s : State) (h : Vector Nat 4) (n : Nat) :
    (s.setCounts h n).inputs = s.inputs := rfl

@[simp] theorem State.setCounts_ports (s : State) (h : Vector Nat 4) (n : Nat) :
    (s.setCounts h n).ports = s.ports := rfl

@[simp] theorem State.setCounts_reached (s : State) (h : Vector Nat 4) (n : Nat) :
    (s.setCounts h n).reached = s.reached := rfl

@[simp] theorem State.setCounts_freeCount (s : State) (h : Vector Nat 4) (n : Nat) :
    (s.setCounts h n).freeCount = s.freeCount := rfl

@[simp] theorem State.setCounts_pending (s : State) (h : Vector Nat 4) (n : Nat) :
    (s.setCounts h n).pending = s.pending := rfl

@[simp] theorem State.setCounts_port (s : State) (h : Vector Nat 4) (n : Nat) (j : Port) : (s.setCounts h n).port j = s.port j := rfl

@[simp] theorem State.setCounts_slot (s : State) (h : Vector Nat 4) (n : Nat) (j : EntryId) : (s.setCounts h n).slot j = s.slot j := rfl

@[simp] theorem State.setCounts_line (s : State) (h : Vector Nat 4) (n : Nat) (j : Line) : (s.setCounts h n).line j = s.line j := rfl

@[simp] theorem State.setCounts_input (s : State) (h : Vector Nat 4) (n : Nat) (j : Input) : (s.setCounts h n).input j = s.input j := rfl

@[simp] theorem State.setCounts_link (s : State) (h : Vector Nat 4) (n : Nat) (j : Port) : (s.setCounts h n).link j = s.link j := rfl

/-! ### `setAuthority` -/

@[simp] theorem State.setAuthority_rstN (s : State) (l : Option Lease) (w : Vector Bool 4) :
    (s.setAuthority l w).rstN = s.rstN := rfl

@[simp] theorem State.setAuthority_rate1 (s : State) (l : Option Lease) (w : Vector Bool 4) :
    (s.setAuthority l w).rate1 = s.rate1 := rfl

@[simp] theorem State.setAuthority_rate0 (s : State) (l : Option Lease) (w : Vector Bool 4) :
    (s.setAuthority l w).rate0 = s.rate0 := rfl

@[simp] theorem State.setAuthority_runTime (s : State) (l : Option Lease) (w : Vector Bool 4) :
    (s.setAuthority l w).runTime = s.runTime := rfl

@[simp] theorem State.setAuthority_refclkCycles (s : State) (l : Option Lease) (w : Vector Bool 4) :
    (s.setAuthority l w).refclkCycles = s.refclkCycles := rfl

@[simp] theorem State.setAuthority_civil (s : State) (l : Option Lease) (w : Vector Bool 4) :
    (s.setAuthority l w).civil = s.civil := rfl

@[simp] theorem State.setAuthority_slew (s : State) (l : Option Lease) (w : Vector Bool 4) :
    (s.setAuthority l w).slew = s.slew := rfl

@[simp] theorem State.setAuthority_step (s : State) (l : Option Lease) (w : Vector Bool 4) :
    (s.setAuthority l w).step = s.step := rfl

@[simp] theorem State.setAuthority_lease (s : State) (l : Option Lease) (w : Vector Bool 4) :
    (s.setAuthority l w).lease = l := rfl

@[simp] theorem State.setAuthority_waiters (s : State) (l : Option Lease) (w : Vector Bool 4) :
    (s.setAuthority l w).waiters = w := rfl

@[simp] theorem State.setAuthority_slots (s : State) (l : Option Lease) (w : Vector Bool 4) :
    (s.setAuthority l w).slots = s.slots := rfl

@[simp] theorem State.setAuthority_held (s : State) (l : Option Lease) (w : Vector Bool 4) :
    (s.setAuthority l w).held = s.held := rfl

@[simp] theorem State.setAuthority_poolUse (s : State) (l : Option Lease) (w : Vector Bool 4) :
    (s.setAuthority l w).poolUse = s.poolUse := rfl

@[simp] theorem State.setAuthority_mono (s : State) (l : Option Lease) (w : Vector Bool 4) :
    (s.setAuthority l w).mono = s.mono := rfl

@[simp] theorem State.setAuthority_civils (s : State) (l : Option Lease) (w : Vector Bool 4) :
    (s.setAuthority l w).civils = s.civils := rfl

@[simp] theorem State.setAuthority_lines (s : State) (l : Option Lease) (w : Vector Bool 4) :
    (s.setAuthority l w).lines = s.lines := rfl

@[simp] theorem State.setAuthority_inputs (s : State) (l : Option Lease) (w : Vector Bool 4) :
    (s.setAuthority l w).inputs = s.inputs := rfl

@[simp] theorem State.setAuthority_ports (s : State) (l : Option Lease) (w : Vector Bool 4) :
    (s.setAuthority l w).ports = s.ports := rfl

@[simp] theorem State.setAuthority_reached (s : State) (l : Option Lease) (w : Vector Bool 4) :
    (s.setAuthority l w).reached = s.reached := rfl

@[simp] theorem State.setAuthority_freeCount (s : State) (l : Option Lease) (w : Vector Bool 4) :
    (s.setAuthority l w).freeCount = s.freeCount := rfl

@[simp] theorem State.setAuthority_pending (s : State) (l : Option Lease) (w : Vector Bool 4) :
    (s.setAuthority l w).pending = s.pending := rfl

@[simp] theorem State.setAuthority_port (s : State) (l : Option Lease) (w : Vector Bool 4) (j : Port) : (s.setAuthority l w).port j = s.port j := rfl

@[simp] theorem State.setAuthority_slot (s : State) (l : Option Lease) (w : Vector Bool 4) (j : EntryId) : (s.setAuthority l w).slot j = s.slot j := rfl

@[simp] theorem State.setAuthority_line (s : State) (l : Option Lease) (w : Vector Bool 4) (j : Line) : (s.setAuthority l w).line j = s.line j := rfl

@[simp] theorem State.setAuthority_input (s : State) (l : Option Lease) (w : Vector Bool 4) (j : Input) : (s.setAuthority l w).input j = s.input j := rfl

@[simp] theorem State.setAuthority_heldBy (s : State) (l : Option Lease) (w : Vector Bool 4) (j : Port) : (s.setAuthority l w).heldBy j = s.heldBy j := rfl

@[simp] theorem State.setAuthority_link (s : State) (l : Option Lease) (w : Vector Bool 4) (j : Port) : (s.setAuthority l w).link j = s.link j := rfl

/-! ### `setCivilTime` -/

@[simp] theorem State.setCivilTime_rstN (s : State) (c : Option Civil) (w : Option Slew) (x : Option PendingStep) :
    (s.setCivilTime c w x).rstN = s.rstN := rfl

@[simp] theorem State.setCivilTime_rate1 (s : State) (c : Option Civil) (w : Option Slew) (x : Option PendingStep) :
    (s.setCivilTime c w x).rate1 = s.rate1 := rfl

@[simp] theorem State.setCivilTime_rate0 (s : State) (c : Option Civil) (w : Option Slew) (x : Option PendingStep) :
    (s.setCivilTime c w x).rate0 = s.rate0 := rfl

@[simp] theorem State.setCivilTime_runTime (s : State) (c : Option Civil) (w : Option Slew) (x : Option PendingStep) :
    (s.setCivilTime c w x).runTime = s.runTime := rfl

@[simp] theorem State.setCivilTime_refclkCycles (s : State) (c : Option Civil) (w : Option Slew) (x : Option PendingStep) :
    (s.setCivilTime c w x).refclkCycles = s.refclkCycles := rfl

@[simp] theorem State.setCivilTime_civil (s : State) (c : Option Civil) (w : Option Slew) (x : Option PendingStep) :
    (s.setCivilTime c w x).civil = c := rfl

@[simp] theorem State.setCivilTime_slew (s : State) (c : Option Civil) (w : Option Slew) (x : Option PendingStep) :
    (s.setCivilTime c w x).slew = w := rfl

@[simp] theorem State.setCivilTime_step (s : State) (c : Option Civil) (w : Option Slew) (x : Option PendingStep) :
    (s.setCivilTime c w x).step = x := rfl

@[simp] theorem State.setCivilTime_lease (s : State) (c : Option Civil) (w : Option Slew) (x : Option PendingStep) :
    (s.setCivilTime c w x).lease = s.lease := rfl

@[simp] theorem State.setCivilTime_waiters (s : State) (c : Option Civil) (w : Option Slew) (x : Option PendingStep) :
    (s.setCivilTime c w x).waiters = s.waiters := rfl

@[simp] theorem State.setCivilTime_slots (s : State) (c : Option Civil) (w : Option Slew) (x : Option PendingStep) :
    (s.setCivilTime c w x).slots = s.slots := rfl

@[simp] theorem State.setCivilTime_held (s : State) (c : Option Civil) (w : Option Slew) (x : Option PendingStep) :
    (s.setCivilTime c w x).held = s.held := rfl

@[simp] theorem State.setCivilTime_poolUse (s : State) (c : Option Civil) (w : Option Slew) (x : Option PendingStep) :
    (s.setCivilTime c w x).poolUse = s.poolUse := rfl

@[simp] theorem State.setCivilTime_mono (s : State) (c : Option Civil) (w : Option Slew) (x : Option PendingStep) :
    (s.setCivilTime c w x).mono = s.mono := rfl

@[simp] theorem State.setCivilTime_civils (s : State) (c : Option Civil) (w : Option Slew) (x : Option PendingStep) :
    (s.setCivilTime c w x).civils = s.civils := rfl

@[simp] theorem State.setCivilTime_lines (s : State) (c : Option Civil) (w : Option Slew) (x : Option PendingStep) :
    (s.setCivilTime c w x).lines = s.lines := rfl

@[simp] theorem State.setCivilTime_inputs (s : State) (c : Option Civil) (w : Option Slew) (x : Option PendingStep) :
    (s.setCivilTime c w x).inputs = s.inputs := rfl

@[simp] theorem State.setCivilTime_ports (s : State) (c : Option Civil) (w : Option Slew) (x : Option PendingStep) :
    (s.setCivilTime c w x).ports = s.ports := rfl

@[simp] theorem State.setCivilTime_reached (s : State) (c : Option Civil) (w : Option Slew) (x : Option PendingStep) :
    (s.setCivilTime c w x).reached = s.reached := rfl

@[simp] theorem State.setCivilTime_freeCount (s : State) (c : Option Civil) (w : Option Slew) (x : Option PendingStep) :
    (s.setCivilTime c w x).freeCount = s.freeCount := rfl

@[simp] theorem State.setCivilTime_pending (s : State) (c : Option Civil) (w : Option Slew) (x : Option PendingStep) :
    (s.setCivilTime c w x).pending = s.pending := rfl

@[simp] theorem State.setCivilTime_port (s : State) (c : Option Civil) (w : Option Slew) (x : Option PendingStep) (j : Port) : (s.setCivilTime c w x).port j = s.port j := rfl

@[simp] theorem State.setCivilTime_slot (s : State) (c : Option Civil) (w : Option Slew) (x : Option PendingStep) (j : EntryId) : (s.setCivilTime c w x).slot j = s.slot j := rfl

@[simp] theorem State.setCivilTime_line (s : State) (c : Option Civil) (w : Option Slew) (x : Option PendingStep) (j : Line) : (s.setCivilTime c w x).line j = s.line j := rfl

@[simp] theorem State.setCivilTime_input (s : State) (c : Option Civil) (w : Option Slew) (x : Option PendingStep) (j : Input) : (s.setCivilTime c w x).input j = s.input j := rfl

@[simp] theorem State.setCivilTime_heldBy (s : State) (c : Option Civil) (w : Option Slew) (x : Option PendingStep) (j : Port) : (s.setCivilTime c w x).heldBy j = s.heldBy j := rfl

@[simp] theorem State.setCivilTime_link (s : State) (c : Option Civil) (w : Option Slew) (x : Option PendingStep) (j : Port) : (s.setCivilTime c w x).link j = s.link j := rfl

/-! ### `setReached` -/

@[simp] theorem State.setReached_rstN (s : State) (r : Reached) :
    (s.setReached r).rstN = s.rstN := rfl

@[simp] theorem State.setReached_rate1 (s : State) (r : Reached) :
    (s.setReached r).rate1 = s.rate1 := rfl

@[simp] theorem State.setReached_rate0 (s : State) (r : Reached) :
    (s.setReached r).rate0 = s.rate0 := rfl

@[simp] theorem State.setReached_runTime (s : State) (r : Reached) :
    (s.setReached r).runTime = s.runTime := rfl

@[simp] theorem State.setReached_refclkCycles (s : State) (r : Reached) :
    (s.setReached r).refclkCycles = s.refclkCycles := rfl

@[simp] theorem State.setReached_civil (s : State) (r : Reached) :
    (s.setReached r).civil = s.civil := rfl

@[simp] theorem State.setReached_slew (s : State) (r : Reached) :
    (s.setReached r).slew = s.slew := rfl

@[simp] theorem State.setReached_step (s : State) (r : Reached) :
    (s.setReached r).step = s.step := rfl

@[simp] theorem State.setReached_lease (s : State) (r : Reached) :
    (s.setReached r).lease = s.lease := rfl

@[simp] theorem State.setReached_waiters (s : State) (r : Reached) :
    (s.setReached r).waiters = s.waiters := rfl

@[simp] theorem State.setReached_slots (s : State) (r : Reached) :
    (s.setReached r).slots = s.slots := rfl

@[simp] theorem State.setReached_held (s : State) (r : Reached) :
    (s.setReached r).held = s.held := rfl

@[simp] theorem State.setReached_poolUse (s : State) (r : Reached) :
    (s.setReached r).poolUse = s.poolUse := rfl

@[simp] theorem State.setReached_mono (s : State) (r : Reached) :
    (s.setReached r).mono = s.mono := rfl

@[simp] theorem State.setReached_civils (s : State) (r : Reached) :
    (s.setReached r).civils = s.civils := rfl

@[simp] theorem State.setReached_lines (s : State) (r : Reached) :
    (s.setReached r).lines = s.lines := rfl

@[simp] theorem State.setReached_inputs (s : State) (r : Reached) :
    (s.setReached r).inputs = s.inputs := rfl

@[simp] theorem State.setReached_ports (s : State) (r : Reached) :
    (s.setReached r).ports = s.ports := rfl

@[simp] theorem State.setReached_reached (s : State) (r : Reached) :
    (s.setReached r).reached = r := rfl

@[simp] theorem State.setReached_freeCount (s : State) (r : Reached) :
    (s.setReached r).freeCount = s.freeCount := rfl

@[simp] theorem State.setReached_pending (s : State) (r : Reached) :
    (s.setReached r).pending = s.pending := rfl

@[simp] theorem State.setReached_port (s : State) (r : Reached) (j : Port) : (s.setReached r).port j = s.port j := rfl

@[simp] theorem State.setReached_slot (s : State) (r : Reached) (j : EntryId) : (s.setReached r).slot j = s.slot j := rfl

@[simp] theorem State.setReached_line (s : State) (r : Reached) (j : Line) : (s.setReached r).line j = s.line j := rfl

@[simp] theorem State.setReached_input (s : State) (r : Reached) (j : Input) : (s.setReached r).input j = s.input j := rfl

@[simp] theorem State.setReached_heldBy (s : State) (r : Reached) (j : Port) : (s.setReached r).heldBy j = s.heldBy j := rfl

@[simp] theorem State.setReached_link (s : State) (r : Reached) (j : Port) : (s.setReached r).link j = s.link j := rfl

/-! ### `setLink` -/

@[simp] theorem State.setLink_rstN (s : State) (p : Port) (x : Link) :
    (s.setLink p x).rstN = s.rstN := rfl

@[simp] theorem State.setLink_rate1 (s : State) (p : Port) (x : Link) :
    (s.setLink p x).rate1 = s.rate1 := rfl

@[simp] theorem State.setLink_rate0 (s : State) (p : Port) (x : Link) :
    (s.setLink p x).rate0 = s.rate0 := rfl

@[simp] theorem State.setLink_runTime (s : State) (p : Port) (x : Link) :
    (s.setLink p x).runTime = s.runTime := rfl

@[simp] theorem State.setLink_refclkCycles (s : State) (p : Port) (x : Link) :
    (s.setLink p x).refclkCycles = s.refclkCycles := rfl

@[simp] theorem State.setLink_civil (s : State) (p : Port) (x : Link) :
    (s.setLink p x).civil = s.civil := rfl

@[simp] theorem State.setLink_slew (s : State) (p : Port) (x : Link) :
    (s.setLink p x).slew = s.slew := rfl

@[simp] theorem State.setLink_step (s : State) (p : Port) (x : Link) :
    (s.setLink p x).step = s.step := rfl

@[simp] theorem State.setLink_lease (s : State) (p : Port) (x : Link) :
    (s.setLink p x).lease = s.lease := rfl

@[simp] theorem State.setLink_waiters (s : State) (p : Port) (x : Link) :
    (s.setLink p x).waiters = s.waiters := rfl

@[simp] theorem State.setLink_slots (s : State) (p : Port) (x : Link) :
    (s.setLink p x).slots = s.slots := rfl

@[simp] theorem State.setLink_held (s : State) (p : Port) (x : Link) :
    (s.setLink p x).held = s.held := rfl

@[simp] theorem State.setLink_poolUse (s : State) (p : Port) (x : Link) :
    (s.setLink p x).poolUse = s.poolUse := rfl

@[simp] theorem State.setLink_mono (s : State) (p : Port) (x : Link) :
    (s.setLink p x).mono = s.mono := rfl

@[simp] theorem State.setLink_civils (s : State) (p : Port) (x : Link) :
    (s.setLink p x).civils = s.civils := rfl

@[simp] theorem State.setLink_lines (s : State) (p : Port) (x : Link) :
    (s.setLink p x).lines = s.lines := rfl

@[simp] theorem State.setLink_inputs (s : State) (p : Port) (x : Link) :
    (s.setLink p x).inputs = s.inputs := rfl

@[simp] theorem State.setLink_ports (s : State) (p : Port) (x : Link) :
    (s.setLink p x).ports = s.ports.set p { s.port p with link := x } := rfl

@[simp] theorem State.setLink_reached (s : State) (p : Port) (x : Link) :
    (s.setLink p x).reached = s.reached := rfl

@[simp] theorem State.setLink_freeCount (s : State) (p : Port) (x : Link) :
    (s.setLink p x).freeCount = s.freeCount := rfl

@[simp] theorem State.setLink_pending (s : State) (p : Port) (x : Link) :
    (s.setLink p x).pending = s.pending := rfl

@[simp] theorem State.setLink_slot (s : State) (p : Port) (x : Link) (j : EntryId) : (s.setLink p x).slot j = s.slot j := rfl

@[simp] theorem State.setLink_line (s : State) (p : Port) (x : Link) (j : Line) : (s.setLink p x).line j = s.line j := rfl

@[simp] theorem State.setLink_input (s : State) (p : Port) (x : Link) (j : Input) : (s.setLink p x).input j = s.input j := rfl

@[simp] theorem State.setLink_heldBy (s : State) (p : Port) (x : Link) (j : Port) : (s.setLink p x).heldBy j = s.heldBy j := rfl

/-! ### Reading back -/

@[simp] theorem State.port_setPort (s : State) (p q : Port) (x : PortState) :
    (s.setPort p x).port q = if q = p then x else s.port q := by
  simp only [State.port, State.setPort, Fin.getElem_fin, Vector.getElem_set]
  by_cases h : q = p
  · simp [h]
  · simp [h, Fin.val_inj, Ne.symm h]

@[simp] theorem State.slot_setSlot (s : State) (i j : EntryId) (x : Slot) :
    (s.setSlot i x).slot j = if j = i then x else s.slot j := by
  simp only [State.slot, State.setSlot, Fin.getElem_fin, Vector.getElem_set]
  by_cases h : j = i
  · simp [h]
  · simp [h, Fin.val_inj, Ne.symm h]

@[simp] theorem State.line_setLine (s : State) (l k : Line) (x : LineState) :
    (s.setLine l x).line k = if k = l then x else s.line k := by
  simp only [State.line, State.setLine, Fin.getElem_fin, Vector.getElem_set]
  by_cases h : k = l
  · simp [h]
  · simp [h, Fin.val_inj, Ne.symm h]

@[simp] theorem State.input_setInput (s : State) (i j : Input) (x : InputState) :
    (s.setInput i x).input j = if j = i then x else s.input j := by
  simp only [State.input, State.setInput, Fin.getElem_fin, Vector.getElem_set]
  by_cases h : j = i
  · simp [h]
  · simp [h, Fin.val_inj, Ne.symm h]

@[simp] theorem State.port_setLink (s : State) (p q : Port) (x : Link) :
    (s.setLink p x).port q = if q = p then { s.port p with link := x } else s.port q := by
  simp [State.setLink]

@[simp] theorem State.link_setLink (s : State) (p q : Port) (x : Link) :
    (s.setLink p x).link q = if q = p then x else s.link q := by
  by_cases h : q = p <;> simp [State.link, h]

@[simp] theorem State.link_setPort (s : State) (p q : Port) (x : PortState) :
    (s.setPort p x).link q = if q = p then x.link else s.link q := by
  by_cases h : q = p <;> simp [State.link, h]

theorem State.port_link (s : State) (p : Port) : (s.port p).link = s.link p := rfl

@[simp] theorem State.heldBy_setCounts (s : State) (h : Vector Nat 4) (n : Nat) (p : Port) :
    (s.setCounts h n).heldBy p = h[p] := rfl

/-- Setting a port twice leaves the second value. -/
theorem State.setPort_setPort (s : State) (p : Port) (x y : PortState) :
    (s.setPort p x).setPort p y = s.setPort p y := by
  simp [State.setPort]

/-- A port set to what it is. -/
@[simp] theorem State.setPort_port (s : State) (p : Port) : s.setPort p (s.port p) = s := by
  simp [State.setPort, State.port]

/-- Two states with the same fields are the same, port by port and slot by slot. -/
theorem State.eq_of_ports (s t : State) (h : { s with ports := t.ports } = t) (hp : ∀ p : Port, s.port p = t.port p) :
    s = t := by
  have e : s.ports = t.ports := by
    apply Vector.ext
    intro i hi
    exact hp ⟨i, hi⟩
  rw [← h]
  cases s
  simp_all

end Sys2Proof.Machine
end

