-- ==== Sys2Proof/Laws/Ops.lean ====
section
/-! SUPPORT. What each shared operation changes and what it leaves, cited by every later proof in place of the
operation's definition.
-/

namespace Sys2Proof.Machine

/-! ### Offers: only the ports change -/

theorem State.offerAll_cons (s : State) (p : Port) (r : Record) (rs : List Record) :
    s.offerAll p (r :: rs) = (s.offer p r).offerAll p rs := rfl

theorem State.offerAll_blocks (s : State) (p : Port) (rs : List Record) :
    s.offerAll p rs = { s with ports := (s.offerAll p rs).ports } := by
  induction rs generalizing s with
  | nil => rfl
  | cons r rs ih =>
    rw [State.offerAll_cons, ih (s.offer p r)]
    rfl

theorem State.port_offer (s : State) (p q : Port) (r : Record) :
    (s.offer p r).port q = if q = p then (s.port p).offer r else s.port q := by
  simp [State.offer]

theorem PortState.offerList_cons (ps : PortState) (r : Record) (rs : List Record) :
    ps.offerList (r :: rs) = (ps.offer r).offerList rs := rfl

@[simp] theorem PortState.offerList_nil (ps : PortState) : ps.offerList [] = ps := rfl

theorem PortState.offerList_append (ps : PortState) (xs ys : List Record) :
    ps.offerList (xs ++ ys) = (ps.offerList xs).offerList ys := by
  simp [PortState.offerList, List.foldl_append]

theorem State.port_offerAll (s : State) (p q : Port) (rs : List Record) :
    (s.offerAll p rs).port q = if q = p then (s.port p).offerList rs else s.port q := by
  induction rs generalizing s with
  | nil => by_cases h : q = p <;> simp [State.offerAll, h]
  | cons r rs ih =>
    rw [State.offerAll_cons, ih, State.port_offer, State.port_offer]
    by_cases h : q = p <;> simp [h, PortState.offerList_cons]

theorem State.offerEach_eq (s : State) (f : Port → List Record) :
    s.offerEach f = (((s.offerAll 0 (f 0)).offerAll 1 (f 1)).offerAll 2 (f 2)).offerAll 3 (f 3) := rfl

theorem State.offerEach_blocks (s : State) (f : Port → List Record) :
    s.offerEach f = { s with ports := (s.offerEach f).ports } := by
  rw [State.offerEach_eq, State.offerAll_blocks _ 3, State.offerAll_blocks _ 2, State.offerAll_blocks _ 1,
    State.offerAll_blocks _ 0]

/-- Each port is offered its own list. -/
theorem State.port_offerEach (s : State) (f : Port → List Record) (q : Port) :
    (s.offerEach f).port q = (s.port q).offerList (f q) := by
  rw [State.offerEach_eq]
  simp only [State.port_offerAll]
  fin_cases q <;> simp

/-- An offer never changes the port's link. -/
@[simp] theorem PortState.offer_link (ps : PortState) (r : Record) : (ps.offer r).link = ps.link := rfl

@[simp] theorem PortState.offerList_link (ps : PortState) (rs : List Record) : (ps.offerList rs).link = ps.link := by
  induction rs generalizing ps with
  | nil => rfl
  | cons r rs ih => rw [PortState.offerList_cons, ih, PortState.offer_link]

@[simp] theorem State.link_offer (s : State) (p q : Port) (r : Record) : (s.offer p r).link q = s.link q := by
  rw [State.link, State.port_offer]
  by_cases h : q = p <;> simp [h, State.link]

@[simp] theorem State.link_offerEach (s : State) (f : Port → List Record) (q : Port) :
    (s.offerEach f).link q = s.link q := by
  simp [State.link, State.port_offerEach]

@[simp] theorem State.offer_rstN (s : State) (p : Port) (r : Record) : (s.offer p r).rstN = s.rstN := rfl

@[simp] theorem State.offer_rate1 (s : State) (p : Port) (r : Record) : (s.offer p r).rate1 = s.rate1 := rfl

@[simp] theorem State.offer_rate0 (s : State) (p : Port) (r : Record) : (s.offer p r).rate0 = s.rate0 := rfl

@[simp] theorem State.offer_runTime (s : State) (p : Port) (r : Record) : (s.offer p r).runTime = s.runTime := rfl

@[simp] theorem State.offer_refclkCycles (s : State) (p : Port) (r : Record) : (s.offer p r).refclkCycles = s.refclkCycles := rfl

@[simp] theorem State.offer_civil (s : State) (p : Port) (r : Record) : (s.offer p r).civil = s.civil := rfl

@[simp] theorem State.offer_slew (s : State) (p : Port) (r : Record) : (s.offer p r).slew = s.slew := rfl

@[simp] theorem State.offer_step (s : State) (p : Port) (r : Record) : (s.offer p r).step = s.step := rfl

@[simp] theorem State.offer_lease (s : State) (p : Port) (r : Record) : (s.offer p r).lease = s.lease := rfl

@[simp] theorem State.offer_waiters (s : State) (p : Port) (r : Record) : (s.offer p r).waiters = s.waiters := rfl

@[simp] theorem State.offer_slots (s : State) (p : Port) (r : Record) : (s.offer p r).slots = s.slots := rfl

@[simp] theorem State.offer_held (s : State) (p : Port) (r : Record) : (s.offer p r).held = s.held := rfl

@[simp] theorem State.offer_poolUse (s : State) (p : Port) (r : Record) : (s.offer p r).poolUse = s.poolUse := rfl

@[simp] theorem State.offer_mono (s : State) (p : Port) (r : Record) : (s.offer p r).mono = s.mono := rfl

@[simp] theorem State.offer_civils (s : State) (p : Port) (r : Record) : (s.offer p r).civils = s.civils := rfl

@[simp] theorem State.offer_lines (s : State) (p : Port) (r : Record) : (s.offer p r).lines = s.lines := rfl

@[simp] theorem State.offer_inputs (s : State) (p : Port) (r : Record) : (s.offer p r).inputs = s.inputs := rfl

@[simp] theorem State.offer_reached (s : State) (p : Port) (r : Record) : (s.offer p r).reached = s.reached := rfl

@[simp] theorem State.offer_freeCount (s : State) (p : Port) (r : Record) : (s.offer p r).freeCount = s.freeCount := rfl

@[simp] theorem State.offer_pending (s : State) (p : Port) (r : Record) : (s.offer p r).pending = s.pending := rfl

@[simp] theorem State.offer_slot (s : State) (p : Port) (r : Record) (j : EntryId) : (s.offer p r).slot j = s.slot j := rfl

@[simp] theorem State.offer_line (s : State) (p : Port) (r : Record) (j : Line) : (s.offer p r).line j = s.line j := rfl

@[simp] theorem State.offer_input (s : State) (p : Port) (r : Record) (j : Input) : (s.offer p r).input j = s.input j := rfl

@[simp] theorem State.offer_heldBy (s : State) (p : Port) (r : Record) (j : Port) : (s.offer p r).heldBy j = s.heldBy j := rfl

@[simp] theorem State.takeRequest_rstN (s : State) (p : Port) : (s.takeRequest p).rstN = s.rstN := rfl

@[simp] theorem State.takeRequest_rate1 (s : State) (p : Port) : (s.takeRequest p).rate1 = s.rate1 := rfl

@[simp] theorem State.takeRequest_rate0 (s : State) (p : Port) : (s.takeRequest p).rate0 = s.rate0 := rfl

@[simp] theorem State.takeRequest_runTime (s : State) (p : Port) : (s.takeRequest p).runTime = s.runTime := rfl

@[simp] theorem State.takeRequest_refclkCycles (s : State) (p : Port) : (s.takeRequest p).refclkCycles = s.refclkCycles := rfl

@[simp] theorem State.takeRequest_civil (s : State) (p : Port) : (s.takeRequest p).civil = s.civil := rfl

@[simp] theorem State.takeRequest_slew (s : State) (p : Port) : (s.takeRequest p).slew = s.slew := rfl

@[simp] theorem State.takeRequest_step (s : State) (p : Port) : (s.takeRequest p).step = s.step := rfl

@[simp] theorem State.takeRequest_lease (s : State) (p : Port) : (s.takeRequest p).lease = s.lease := rfl

@[simp] theorem State.takeRequest_waiters (s : State) (p : Port) : (s.takeRequest p).waiters = s.waiters := rfl

@[simp] theorem State.takeRequest_slots (s : State) (p : Port) : (s.takeRequest p).slots = s.slots := rfl

@[simp] theorem State.takeRequest_held (s : State) (p : Port) : (s.takeRequest p).held = s.held := rfl

@[simp] theorem State.takeRequest_poolUse (s : State) (p : Port) : (s.takeRequest p).poolUse = s.poolUse := rfl

@[simp] theorem State.takeRequest_mono (s : State) (p : Port) : (s.takeRequest p).mono = s.mono := rfl

@[simp] theorem State.takeRequest_civils (s : State) (p : Port) : (s.takeRequest p).civils = s.civils := rfl

@[simp] theorem State.takeRequest_lines (s : State) (p : Port) : (s.takeRequest p).lines = s.lines := rfl

@[simp] theorem State.takeRequest_inputs (s : State) (p : Port) : (s.takeRequest p).inputs = s.inputs := rfl

@[simp] theorem State.takeRequest_reached (s : State) (p : Port) : (s.takeRequest p).reached = s.reached := rfl

@[simp] theorem State.takeRequest_freeCount (s : State) (p : Port) : (s.takeRequest p).freeCount = s.freeCount := rfl

@[simp] theorem State.takeRequest_pending (s : State) (p : Port) : (s.takeRequest p).pending = s.pending := rfl

@[simp] theorem State.takeRequest_slot (s : State) (p : Port) (j : EntryId) : (s.takeRequest p).slot j = s.slot j := rfl

@[simp] theorem State.takeRequest_line (s : State) (p : Port) (j : Line) : (s.takeRequest p).line j = s.line j := rfl

@[simp] theorem State.takeRequest_input (s : State) (p : Port) (j : Input) : (s.takeRequest p).input j = s.input j := rfl

@[simp] theorem State.takeRequest_heldBy (s : State) (p : Port) (j : Port) : (s.takeRequest p).heldBy j = s.heldBy j := rfl

@[simp] theorem State.respond_rstN (s : State) (p : Port) (tag code : Byte) (r : Reply) : (s.respond p tag code r).rstN = s.rstN := rfl

@[simp] theorem State.respond_rate1 (s : State) (p : Port) (tag code : Byte) (r : Reply) : (s.respond p tag code r).rate1 = s.rate1 := rfl

@[simp] theorem State.respond_rate0 (s : State) (p : Port) (tag code : Byte) (r : Reply) : (s.respond p tag code r).rate0 = s.rate0 := rfl

@[simp] theorem State.respond_runTime (s : State) (p : Port) (tag code : Byte) (r : Reply) : (s.respond p tag code r).runTime = s.runTime := rfl

@[simp] theorem State.respond_refclkCycles (s : State) (p : Port) (tag code : Byte) (r : Reply) : (s.respond p tag code r).refclkCycles = s.refclkCycles := rfl

@[simp] theorem State.respond_civil (s : State) (p : Port) (tag code : Byte) (r : Reply) : (s.respond p tag code r).civil = s.civil := rfl

@[simp] theorem State.respond_slew (s : State) (p : Port) (tag code : Byte) (r : Reply) : (s.respond p tag code r).slew = s.slew := rfl

@[simp] theorem State.respond_step (s : State) (p : Port) (tag code : Byte) (r : Reply) : (s.respond p tag code r).step = s.step := rfl

@[simp] theorem State.respond_lease (s : State) (p : Port) (tag code : Byte) (r : Reply) : (s.respond p tag code r).lease = s.lease := rfl

@[simp] theorem State.respond_waiters (s : State) (p : Port) (tag code : Byte) (r : Reply) : (s.respond p tag code r).waiters = s.waiters := rfl

@[simp] theorem State.respond_slots (s : State) (p : Port) (tag code : Byte) (r : Reply) : (s.respond p tag code r).slots = s.slots := rfl

@[simp] theorem State.respond_held (s : State) (p : Port) (tag code : Byte) (r : Reply) : (s.respond p tag code r).held = s.held := rfl

@[simp] theorem State.respond_poolUse (s : State) (p : Port) (tag code : Byte) (r : Reply) : (s.respond p tag code r).poolUse = s.poolUse := rfl

@[simp] theorem State.respond_mono (s : State) (p : Port) (tag code : Byte) (r : Reply) : (s.respond p tag code r).mono = s.mono := rfl

@[simp] theorem State.respond_civils (s : State) (p : Port) (tag code : Byte) (r : Reply) : (s.respond p tag code r).civils = s.civils := rfl

@[simp] theorem State.respond_lines (s : State) (p : Port) (tag code : Byte) (r : Reply) : (s.respond p tag code r).lines = s.lines := rfl

@[simp] theorem State.respond_inputs (s : State) (p : Port) (tag code : Byte) (r : Reply) : (s.respond p tag code r).inputs = s.inputs := rfl

@[simp] theorem State.respond_reached (s : State) (p : Port) (tag code : Byte) (r : Reply) : (s.respond p tag code r).reached = s.reached := rfl

@[simp] theorem State.respond_freeCount (s : State) (p : Port) (tag code : Byte) (r : Reply) : (s.respond p tag code r).freeCount = s.freeCount := rfl

@[simp] theorem State.respond_pending (s : State) (p : Port) (tag code : Byte) (r : Reply) : (s.respond p tag code r).pending = s.pending := rfl

@[simp] theorem State.respond_slot (s : State) (p : Port) (tag code : Byte) (r : Reply) (j : EntryId) : (s.respond p tag code r).slot j = s.slot j := rfl

@[simp] theorem State.respond_line (s : State) (p : Port) (tag code : Byte) (r : Reply) (j : Line) : (s.respond p tag code r).line j = s.line j := rfl

@[simp] theorem State.respond_input (s : State) (p : Port) (tag code : Byte) (r : Reply) (j : Input) : (s.respond p tag code r).input j = s.input j := rfl

@[simp] theorem State.respond_heldBy (s : State) (p : Port) (tag code : Byte) (r : Reply) (j : Port) : (s.respond p tag code r).heldBy j = s.heldBy j := rfl

@[simp] theorem State.offerEach_rstN (s : State) (f : Port → List Record) : (s.offerEach f).rstN = s.rstN := by rw [State.offerEach_blocks]

@[simp] theorem State.offerEach_rate1 (s : State) (f : Port → List Record) : (s.offerEach f).rate1 = s.rate1 := by rw [State.offerEach_blocks]

@[simp] theorem State.offerEach_rate0 (s : State) (f : Port → List Record) : (s.offerEach f).rate0 = s.rate0 := by rw [State.offerEach_blocks]

@[simp] theorem State.offerEach_runTime (s : State) (f : Port → List Record) : (s.offerEach f).runTime = s.runTime := by rw [State.offerEach_blocks]

@[simp] theorem State.offerEach_refclkCycles (s : State) (f : Port → List Record) : (s.offerEach f).refclkCycles = s.refclkCycles := by rw [State.offerEach_blocks]

@[simp] theorem State.offerEach_civil (s : State) (f : Port → List Record) : (s.offerEach f).civil = s.civil := by rw [State.offerEach_blocks]

@[simp] theorem State.offerEach_slew (s : State) (f : Port → List Record) : (s.offerEach f).slew = s.slew := by rw [State.offerEach_blocks]

@[simp] theorem State.offerEach_step (s : State) (f : Port → List Record) : (s.offerEach f).step = s.step := by rw [State.offerEach_blocks]

@[simp] theorem State.offerEach_lease (s : State) (f : Port → List Record) : (s.offerEach f).lease = s.lease := by rw [State.offerEach_blocks]

@[simp] theorem State.offerEach_waiters (s : State) (f : Port → List Record) : (s.offerEach f).waiters = s.waiters := by rw [State.offerEach_blocks]

@[simp] theorem State.offerEach_slots (s : State) (f : Port → List Record) : (s.offerEach f).slots = s.slots := by rw [State.offerEach_blocks]

@[simp] theorem State.offerEach_held (s : State) (f : Port → List Record) : (s.offerEach f).held = s.held := by rw [State.offerEach_blocks]

@[simp] theorem State.offerEach_poolUse (s : State) (f : Port → List Record) : (s.offerEach f).poolUse = s.poolUse := by rw [State.offerEach_blocks]

@[simp] theorem State.offerEach_mono (s : State) (f : Port → List Record) : (s.offerEach f).mono = s.mono := by rw [State.offerEach_blocks]

@[simp] theorem State.offerEach_civils (s : State) (f : Port → List Record) : (s.offerEach f).civils = s.civils := by rw [State.offerEach_blocks]

@[simp] theorem State.offerEach_lines (s : State) (f : Port → List Record) : (s.offerEach f).lines = s.lines := by rw [State.offerEach_blocks]

@[simp] theorem State.offerEach_inputs (s : State) (f : Port → List Record) : (s.offerEach f).inputs = s.inputs := by rw [State.offerEach_blocks]

@[simp] theorem State.offerEach_reached (s : State) (f : Port → List Record) : (s.offerEach f).reached = s.reached := by rw [State.offerEach_blocks]

@[simp] theorem State.offerEach_freeCount (s : State) (f : Port → List Record) : (s.offerEach f).freeCount = s.freeCount := by rw [State.offerEach_blocks]

@[simp] theorem State.offerEach_pending (s : State) (f : Port → List Record) : (s.offerEach f).pending = s.pending := by rw [State.offerEach_blocks]

@[simp] theorem State.offerEach_slot (s : State) (f : Port → List Record) (j : EntryId) : (s.offerEach f).slot j = s.slot j := by
  rw [State.offerEach_blocks]; rfl

@[simp] theorem State.offerEach_line (s : State) (f : Port → List Record) (j : Line) : (s.offerEach f).line j = s.line j := by
  rw [State.offerEach_blocks]; rfl

@[simp] theorem State.offerEach_input (s : State) (f : Port → List Record) (j : Input) : (s.offerEach f).input j = s.input j := by
  rw [State.offerEach_blocks]; rfl

@[simp] theorem State.offerEach_heldBy (s : State) (f : Port → List Record) (j : Port) : (s.offerEach f).heldBy j = s.heldBy j := by
  rw [State.offerEach_blocks]; rfl

/-! ### Requests: only the port's link changes -/

theorem State.port_takeRequest (s : State) (p q : Port) :
    (s.takeRequest p).port q = if q = p then { s.port p with link := (s.link p).take } else s.port q := by
  simp [State.takeRequest]

theorem State.port_respond (s : State) (p q : Port) (tag code : Byte) (r : Reply) :
    (s.respond p tag code r).port q =
      if q = p then { s.port p with link := (s.link p).respond tag code r } else s.port q := by
  simp [State.respond]

@[simp] theorem State.takeRequest_holds (s : State) (p q : Port) : (s.takeRequest p).holds q = s.holds q := rfl

@[simp] theorem State.takeRequest_ownsLine (s : State) (p q : Port) (l : Line) :
    (s.takeRequest p).ownsLine q l = s.ownsLine q l := rfl

@[simp] theorem State.takeRequest_ownsInput (s : State) (p q : Port) (i : Input) :
    (s.takeRequest p).ownsInput q i = s.ownsInput q i := rfl

@[simp] theorem State.takeRequest_queue (s : State) (p q : Port) :
    ((s.takeRequest p).port q).queue = (s.port q).queue := by
  rw [State.port_takeRequest]; by_cases h : q = p <;> simp [h]

@[simp] theorem State.takeRequest_engine (s : State) (p q : Port) :
    ((s.takeRequest p).port q).engine = (s.port q).engine := by
  rw [State.port_takeRequest]; by_cases h : q = p <;> simp [h]

/-- A port that may take its request carries it out on the state with the request taken, and answers it. -/
theorem State.serve_of_requested {s : State} {p : Port} {tag code : Byte} {args : List Byte}
    (h : Requested s p tag code args) (run : List Byte → State → State × Reply) :
    s.serve p code run = (run args (s.takeRequest p)).1.respond p tag code (run args (s.takeRequest p)).2 := by
  obtain ⟨-, h4, hr, hf⟩ := h
  have ht : (s.link p).takable = some (tag :: code :: args) := by
    have h4' : ¬ 4 ≤ (s.link p).responses.length := by omega
    simp [Link.takable, Config.responseCapacity, hr, hf, h4']
  simp [State.serve, ht]

/-- A port that may take no request leaves everything as it is. -/
theorem State.serve_of_waiting {s : State} {p : Port} (code : Byte) (run : List Byte → State → State × Reply)
    (h : (s.link p).takable = none) : s.serve p code run = s := by
  simp [State.serve, h]

/-- A request either leaves everything as it is, or is carried out on its argument field and answered. -/
theorem State.serve_cases (s : State) (p : Port) (code : Byte) (run : List Byte → State → State × Reply) :
    s.serve p code run = s ∨
    ∃ tag args, (s.link p).takable = some (tag :: code :: args) ∧
      s.serve p code run = (run args (s.takeRequest p)).1.respond p tag code (run args (s.takeRequest p)).2 := by
  unfold State.serve
  split
  · next tag c args ht =>
    by_cases hc : c = code
    · subst hc
      exact Or.inr ⟨tag, args, ht, by simp⟩
    · exact Or.inl (by simp [hc])
  all_goals exact Or.inl rfl

theorem withLength_eq {n : Nat} {run : List Byte → State → State × Reply} {args : List Byte} {s : State}
    (h : args.length = n) : withLength n run args s = run args s := by
  simp [withLength, h]

theorem withLength_ne {n : Nat} {run : List Byte → State → State × Reply} {args : List Byte} {s : State}
    (h : args.length ≠ n) : withLength n run args s = (s, Reply.plain .malformed) := by
  simp [withLength, h]

theorem whenReleased_high {s : State} {f : State → State} (h : s.rstN = true) : whenReleased s f = .next (f s) := by
  simp [whenReleased, h]

theorem whenReleased_low {s : State} {f : State → State} (h : s.rstN = false) : whenReleased s f = .next s := by
  simp [whenReleased, h]

/-! ### The schedule table and the due lists: nothing outside them changes -/

@[simp] theorem State.unlist_rstN (s : State) (id : EntryId) : (s.unlist id).rstN = s.rstN := rfl

@[simp] theorem State.unlist_rate1 (s : State) (id : EntryId) : (s.unlist id).rate1 = s.rate1 := rfl

@[simp] theorem State.unlist_rate0 (s : State) (id : EntryId) : (s.unlist id).rate0 = s.rate0 := rfl

@[simp] theorem State.unlist_runTime (s : State) (id : EntryId) : (s.unlist id).runTime = s.runTime := rfl

@[simp] theorem State.unlist_refclkCycles (s : State) (id : EntryId) : (s.unlist id).refclkCycles = s.refclkCycles := rfl

@[simp] theorem State.unlist_civil (s : State) (id : EntryId) : (s.unlist id).civil = s.civil := rfl

@[simp] theorem State.unlist_slew (s : State) (id : EntryId) : (s.unlist id).slew = s.slew := rfl

@[simp] theorem State.unlist_step (s : State) (id : EntryId) : (s.unlist id).step = s.step := rfl

@[simp] theorem State.unlist_lease (s : State) (id : EntryId) : (s.unlist id).lease = s.lease := rfl

@[simp] theorem State.unlist_waiters (s : State) (id : EntryId) : (s.unlist id).waiters = s.waiters := rfl

@[simp] theorem State.unlist_slots (s : State) (id : EntryId) : (s.unlist id).slots = s.slots := rfl

@[simp] theorem State.unlist_held (s : State) (id : EntryId) : (s.unlist id).held = s.held := rfl

@[simp] theorem State.unlist_poolUse (s : State) (id : EntryId) : (s.unlist id).poolUse = s.poolUse := rfl

@[simp] theorem State.unlist_lines (s : State) (id : EntryId) : (s.unlist id).lines = s.lines := rfl

@[simp] theorem State.unlist_inputs (s : State) (id : EntryId) : (s.unlist id).inputs = s.inputs := rfl

@[simp] theorem State.unlist_ports (s : State) (id : EntryId) : (s.unlist id).ports = s.ports := rfl

@[simp] theorem State.unlist_reached (s : State) (id : EntryId) : (s.unlist id).reached = s.reached := rfl

@[simp] theorem State.unlist_freeCount (s : State) (id : EntryId) : (s.unlist id).freeCount = s.freeCount := rfl

@[simp] theorem State.unlist_pending (s : State) (id : EntryId) : (s.unlist id).pending = s.pending := rfl

@[simp] theorem State.unlist_slot (s : State) (id : EntryId) (j : EntryId) : (s.unlist id).slot j = s.slot j := rfl

@[simp] theorem State.unlist_line (s : State) (id : EntryId) (j : Line) : (s.unlist id).line j = s.line j := rfl

@[simp] theorem State.unlist_input (s : State) (id : EntryId) (j : Input) : (s.unlist id).input j = s.input j := rfl

@[simp] theorem State.unlist_heldBy (s : State) (id : EntryId) (j : Port) : (s.unlist id).heldBy j = s.heldBy j := rfl

@[simp] theorem State.unlist_port (s : State) (id : EntryId) (j : Port) : (s.unlist id).port j = s.port j := rfl

@[simp] theorem State.unlist_link (s : State) (id : EntryId) (j : Port) : (s.unlist id).link j = s.link j := rfl

@[simp] theorem State.setEntry_rstN (s : State) (id : EntryId) (e : Entry) : (s.setEntry id e).rstN = s.rstN := rfl

@[simp] theorem State.setEntry_rate1 (s : State) (id : EntryId) (e : Entry) : (s.setEntry id e).rate1 = s.rate1 := rfl

@[simp] theorem State.setEntry_rate0 (s : State) (id : EntryId) (e : Entry) : (s.setEntry id e).rate0 = s.rate0 := rfl

@[simp] theorem State.setEntry_runTime (s : State) (id : EntryId) (e : Entry) : (s.setEntry id e).runTime = s.runTime := rfl

@[simp] theorem State.setEntry_refclkCycles (s : State) (id : EntryId) (e : Entry) : (s.setEntry id e).refclkCycles = s.refclkCycles := rfl

@[simp] theorem State.setEntry_civil (s : State) (id : EntryId) (e : Entry) : (s.setEntry id e).civil = s.civil := rfl

@[simp] theorem State.setEntry_slew (s : State) (id : EntryId) (e : Entry) : (s.setEntry id e).slew = s.slew := rfl

@[simp] theorem State.setEntry_step (s : State) (id : EntryId) (e : Entry) : (s.setEntry id e).step = s.step := rfl

@[simp] theorem State.setEntry_lease (s : State) (id : EntryId) (e : Entry) : (s.setEntry id e).lease = s.lease := rfl

@[simp] theorem State.setEntry_waiters (s : State) (id : EntryId) (e : Entry) : (s.setEntry id e).waiters = s.waiters := rfl

@[simp] theorem State.setEntry_held (s : State) (id : EntryId) (e : Entry) : (s.setEntry id e).held = s.held := rfl

@[simp] theorem State.setEntry_poolUse (s : State) (id : EntryId) (e : Entry) : (s.setEntry id e).poolUse = s.poolUse := rfl

@[simp] theorem State.setEntry_mono (s : State) (id : EntryId) (e : Entry) : (s.setEntry id e).mono = s.mono := rfl

@[simp] theorem State.setEntry_civils (s : State) (id : EntryId) (e : Entry) : (s.setEntry id e).civils = s.civils := rfl

@[simp] theorem State.setEntry_lines (s : State) (id : EntryId) (e : Entry) : (s.setEntry id e).lines = s.lines := rfl

@[simp] theorem State.setEntry_inputs (s : State) (id : EntryId) (e : Entry) : (s.setEntry id e).inputs = s.inputs := rfl

@[simp] theorem State.setEntry_ports (s : State) (id : EntryId) (e : Entry) : (s.setEntry id e).ports = s.ports := rfl

@[simp] theorem State.setEntry_reached (s : State) (id : EntryId) (e : Entry) : (s.setEntry id e).reached = s.reached := rfl

@[simp] theorem State.setEntry_freeCount (s : State) (id : EntryId) (e : Entry) : (s.setEntry id e).freeCount = s.freeCount := rfl

@[simp] theorem State.setEntry_pending (s : State) (id : EntryId) (e : Entry) : (s.setEntry id e).pending = s.pending := rfl

@[simp] theorem State.setEntry_line (s : State) (id : EntryId) (e : Entry) (j : Line) : (s.setEntry id e).line j = s.line j := rfl

@[simp] theorem State.setEntry_input (s : State) (id : EntryId) (e : Entry) (j : Input) : (s.setEntry id e).input j = s.input j := rfl

@[simp] theorem State.setEntry_heldBy (s : State) (id : EntryId) (e : Entry) (j : Port) : (s.setEntry id e).heldBy j = s.heldBy j := rfl

@[simp] theorem State.setEntry_port (s : State) (id : EntryId) (e : Entry) (j : Port) : (s.setEntry id e).port j = s.port j := rfl

@[simp] theorem State.setEntry_link (s : State) (id : EntryId) (e : Entry) (j : Port) : (s.setEntry id e).link j = s.link j := rfl

@[simp] theorem State.setHeld_rstN (s : State) (p : Port) (n : Nat) : (s.setHeld p n).rstN = s.rstN := rfl

@[simp] theorem State.setHeld_rate1 (s : State) (p : Port) (n : Nat) : (s.setHeld p n).rate1 = s.rate1 := rfl

@[simp] theorem State.setHeld_rate0 (s : State) (p : Port) (n : Nat) : (s.setHeld p n).rate0 = s.rate0 := rfl

@[simp] theorem State.setHeld_runTime (s : State) (p : Port) (n : Nat) : (s.setHeld p n).runTime = s.runTime := rfl

@[simp] theorem State.setHeld_refclkCycles (s : State) (p : Port) (n : Nat) : (s.setHeld p n).refclkCycles = s.refclkCycles := rfl

@[simp] theorem State.setHeld_civil (s : State) (p : Port) (n : Nat) : (s.setHeld p n).civil = s.civil := rfl

@[simp] theorem State.setHeld_slew (s : State) (p : Port) (n : Nat) : (s.setHeld p n).slew = s.slew := rfl

@[simp] theorem State.setHeld_step (s : State) (p : Port) (n : Nat) : (s.setHeld p n).step = s.step := rfl

@[simp] theorem State.setHeld_lease (s : State) (p : Port) (n : Nat) : (s.setHeld p n).lease = s.lease := rfl

@[simp] theorem State.setHeld_waiters (s : State) (p : Port) (n : Nat) : (s.setHeld p n).waiters = s.waiters := rfl

@[simp] theorem State.setHeld_slots (s : State) (p : Port) (n : Nat) : (s.setHeld p n).slots = s.slots := rfl

@[simp] theorem State.setHeld_mono (s : State) (p : Port) (n : Nat) : (s.setHeld p n).mono = s.mono := rfl

@[simp] theorem State.setHeld_civils (s : State) (p : Port) (n : Nat) : (s.setHeld p n).civils = s.civils := rfl

@[simp] theorem State.setHeld_lines (s : State) (p : Port) (n : Nat) : (s.setHeld p n).lines = s.lines := rfl

@[simp] theorem State.setHeld_inputs (s : State) (p : Port) (n : Nat) : (s.setHeld p n).inputs = s.inputs := rfl

@[simp] theorem State.setHeld_ports (s : State) (p : Port) (n : Nat) : (s.setHeld p n).ports = s.ports := rfl

@[simp] theorem State.setHeld_reached (s : State) (p : Port) (n : Nat) : (s.setHeld p n).reached = s.reached := rfl

@[simp] theorem State.setHeld_freeCount (s : State) (p : Port) (n : Nat) : (s.setHeld p n).freeCount = s.freeCount := rfl

@[simp] theorem State.setHeld_pending (s : State) (p : Port) (n : Nat) : (s.setHeld p n).pending = s.pending := rfl

@[simp] theorem State.setHeld_slot (s : State) (p : Port) (n : Nat) (j : EntryId) : (s.setHeld p n).slot j = s.slot j := rfl

@[simp] theorem State.setHeld_line (s : State) (p : Port) (n : Nat) (j : Line) : (s.setHeld p n).line j = s.line j := rfl

@[simp] theorem State.setHeld_input (s : State) (p : Port) (n : Nat) (j : Input) : (s.setHeld p n).input j = s.input j := rfl

@[simp] theorem State.setHeld_port (s : State) (p : Port) (n : Nat) (j : Port) : (s.setHeld p n).port j = s.port j := rfl

@[simp] theorem State.setHeld_link (s : State) (p : Port) (n : Nat) (j : Port) : (s.setHeld p n).link j = s.link j := rfl

@[simp] theorem State.armMono_rstN (s : State) (id : EntryId) (e : Entry) (due : Nat) (late : Bool) : (s.armMono id e due late).rstN = s.rstN := rfl

@[simp] theorem State.armMono_rate1 (s : State) (id : EntryId) (e : Entry) (due : Nat) (late : Bool) : (s.armMono id e due late).rate1 = s.rate1 := rfl

@[simp] theorem State.armMono_rate0 (s : State) (id : EntryId) (e : Entry) (due : Nat) (late : Bool) : (s.armMono id e due late).rate0 = s.rate0 := rfl

@[simp] theorem State.armMono_runTime (s : State) (id : EntryId) (e : Entry) (due : Nat) (late : Bool) : (s.armMono id e due late).runTime = s.runTime := rfl

@[simp] theorem State.armMono_refclkCycles (s : State) (id : EntryId) (e : Entry) (due : Nat) (late : Bool) : (s.armMono id e due late).refclkCycles = s.refclkCycles := rfl

@[simp] theorem State.armMono_civil (s : State) (id : EntryId) (e : Entry) (due : Nat) (late : Bool) : (s.armMono id e due late).civil = s.civil := rfl

@[simp] theorem State.armMono_slew (s : State) (id : EntryId) (e : Entry) (due : Nat) (late : Bool) : (s.armMono id e due late).slew = s.slew := rfl

@[simp] theorem State.armMono_step (s : State) (id : EntryId) (e : Entry) (due : Nat) (late : Bool) : (s.armMono id e due late).step = s.step := rfl

@[simp] theorem State.armMono_lease (s : State) (id : EntryId) (e : Entry) (due : Nat) (late : Bool) : (s.armMono id e due late).lease = s.lease := rfl

@[simp] theorem State.armMono_waiters (s : State) (id : EntryId) (e : Entry) (due : Nat) (late : Bool) : (s.armMono id e due late).waiters = s.waiters := rfl

@[simp] theorem State.armMono_held (s : State) (id : EntryId) (e : Entry) (due : Nat) (late : Bool) : (s.armMono id e due late).held = s.held := rfl

@[simp] theorem State.armMono_poolUse (s : State) (id : EntryId) (e : Entry) (due : Nat) (late : Bool) : (s.armMono id e due late).poolUse = s.poolUse := rfl

@[simp] theorem State.armMono_lines (s : State) (id : EntryId) (e : Entry) (due : Nat) (late : Bool) : (s.armMono id e due late).lines = s.lines := rfl

@[simp] theorem State.armMono_inputs (s : State) (id : EntryId) (e : Entry) (due : Nat) (late : Bool) : (s.armMono id e due late).inputs = s.inputs := rfl

@[simp] theorem State.armMono_ports (s : State) (id : EntryId) (e : Entry) (due : Nat) (late : Bool) : (s.armMono id e due late).ports = s.ports := rfl

@[simp] theorem State.armMono_reached (s : State) (id : EntryId) (e : Entry) (due : Nat) (late : Bool) : (s.armMono id e due late).reached = s.reached := rfl

@[simp] theorem State.armMono_freeCount (s : State) (id : EntryId) (e : Entry) (due : Nat) (late : Bool) : (s.armMono id e due late).freeCount = s.freeCount := rfl

@[simp] theorem State.armMono_pending (s : State) (id : EntryId) (e : Entry) (due : Nat) (late : Bool) : (s.armMono id e due late).pending = s.pending := rfl

@[simp] theorem State.armMono_line (s : State) (id : EntryId) (e : Entry) (due : Nat) (late : Bool) (j : Line) : (s.armMono id e due late).line j = s.line j := rfl

@[simp] theorem State.armMono_input (s : State) (id : EntryId) (e : Entry) (due : Nat) (late : Bool) (j : Input) : (s.armMono id e due late).input j = s.input j := rfl

@[simp] theorem State.armMono_heldBy (s : State) (id : EntryId) (e : Entry) (due : Nat) (late : Bool) (j : Port) : (s.armMono id e due late).heldBy j = s.heldBy j := rfl

@[simp] theorem State.armMono_port (s : State) (id : EntryId) (e : Entry) (due : Nat) (late : Bool) (j : Port) : (s.armMono id e due late).port j = s.port j := rfl

@[simp] theorem State.armMono_link (s : State) (id : EntryId) (e : Entry) (due : Nat) (late : Bool) (j : Port) : (s.armMono id e due late).link j = s.link j := rfl

@[simp] theorem State.armCivil_rstN (s : State) (id : EntryId) (e : Entry) (next : Civil) : (s.armCivil id e next).rstN = s.rstN := rfl

@[simp] theorem State.armCivil_rate1 (s : State) (id : EntryId) (e : Entry) (next : Civil) : (s.armCivil id e next).rate1 = s.rate1 := rfl

@[simp] theorem State.armCivil_rate0 (s : State) (id : EntryId) (e : Entry) (next : Civil) : (s.armCivil id e next).rate0 = s.rate0 := rfl

@[simp] theorem State.armCivil_runTime (s : State) (id : EntryId) (e : Entry) (next : Civil) : (s.armCivil id e next).runTime = s.runTime := rfl

@[simp] theorem State.armCivil_refclkCycles (s : State) (id : EntryId) (e : Entry) (next : Civil) : (s.armCivil id e next).refclkCycles = s.refclkCycles := rfl

@[simp] theorem State.armCivil_civil (s : State) (id : EntryId) (e : Entry) (next : Civil) : (s.armCivil id e next).civil = s.civil := rfl

@[simp] theorem State.armCivil_slew (s : State) (id : EntryId) (e : Entry) (next : Civil) : (s.armCivil id e next).slew = s.slew := rfl

@[simp] theorem State.armCivil_step (s : State) (id : EntryId) (e : Entry) (next : Civil) : (s.armCivil id e next).step = s.step := rfl

@[simp] theorem State.armCivil_lease (s : State) (id : EntryId) (e : Entry) (next : Civil) : (s.armCivil id e next).lease = s.lease := rfl

@[simp] theorem State.armCivil_waiters (s : State) (id : EntryId) (e : Entry) (next : Civil) : (s.armCivil id e next).waiters = s.waiters := rfl

@[simp] theorem State.armCivil_held (s : State) (id : EntryId) (e : Entry) (next : Civil) : (s.armCivil id e next).held = s.held := rfl

@[simp] theorem State.armCivil_poolUse (s : State) (id : EntryId) (e : Entry) (next : Civil) : (s.armCivil id e next).poolUse = s.poolUse := rfl

@[simp] theorem State.armCivil_lines (s : State) (id : EntryId) (e : Entry) (next : Civil) : (s.armCivil id e next).lines = s.lines := rfl

@[simp] theorem State.armCivil_inputs (s : State) (id : EntryId) (e : Entry) (next : Civil) : (s.armCivil id e next).inputs = s.inputs := rfl

@[simp] theorem State.armCivil_ports (s : State) (id : EntryId) (e : Entry) (next : Civil) : (s.armCivil id e next).ports = s.ports := rfl

@[simp] theorem State.armCivil_reached (s : State) (id : EntryId) (e : Entry) (next : Civil) : (s.armCivil id e next).reached = s.reached := rfl

@[simp] theorem State.armCivil_freeCount (s : State) (id : EntryId) (e : Entry) (next : Civil) : (s.armCivil id e next).freeCount = s.freeCount := rfl

@[simp] theorem State.armCivil_pending (s : State) (id : EntryId) (e : Entry) (next : Civil) : (s.armCivil id e next).pending = s.pending := rfl

@[simp] theorem State.armCivil_line (s : State) (id : EntryId) (e : Entry) (next : Civil) (j : Line) : (s.armCivil id e next).line j = s.line j := rfl

@[simp] theorem State.armCivil_input (s : State) (id : EntryId) (e : Entry) (next : Civil) (j : Input) : (s.armCivil id e next).input j = s.input j := rfl

@[simp] theorem State.armCivil_heldBy (s : State) (id : EntryId) (e : Entry) (next : Civil) (j : Port) : (s.armCivil id e next).heldBy j = s.heldBy j := rfl

@[simp] theorem State.armCivil_port (s : State) (id : EntryId) (e : Entry) (next : Civil) (j : Port) : (s.armCivil id e next).port j = s.port j := rfl

@[simp] theorem State.armCivil_link (s : State) (id : EntryId) (e : Entry) (next : Civil) (j : Port) : (s.armCivil id e next).link j = s.link j := rfl

@[simp] theorem State.park_rstN (s : State) (id : EntryId) (e : Entry) (st : EntryState) : (s.park id e st).rstN = s.rstN := rfl

@[simp] theorem State.park_rate1 (s : State) (id : EntryId) (e : Entry) (st : EntryState) : (s.park id e st).rate1 = s.rate1 := rfl

@[simp] theorem State.park_rate0 (s : State) (id : EntryId) (e : Entry) (st : EntryState) : (s.park id e st).rate0 = s.rate0 := rfl

@[simp] theorem State.park_runTime (s : State) (id : EntryId) (e : Entry) (st : EntryState) : (s.park id e st).runTime = s.runTime := rfl

@[simp] theorem State.park_refclkCycles (s : State) (id : EntryId) (e : Entry) (st : EntryState) : (s.park id e st).refclkCycles = s.refclkCycles := rfl

@[simp] theorem State.park_civil (s : State) (id : EntryId) (e : Entry) (st : EntryState) : (s.park id e st).civil = s.civil := rfl

@[simp] theorem State.park_slew (s : State) (id : EntryId) (e : Entry) (st : EntryState) : (s.park id e st).slew = s.slew := rfl

@[simp] theorem State.park_step (s : State) (id : EntryId) (e : Entry) (st : EntryState) : (s.park id e st).step = s.step := rfl

@[simp] theorem State.park_lease (s : State) (id : EntryId) (e : Entry) (st : EntryState) : (s.park id e st).lease = s.lease := rfl

@[simp] theorem State.park_waiters (s : State) (id : EntryId) (e : Entry) (st : EntryState) : (s.park id e st).waiters = s.waiters := rfl

@[simp] theorem State.park_held (s : State) (id : EntryId) (e : Entry) (st : EntryState) : (s.park id e st).held = s.held := rfl

@[simp] theorem State.park_poolUse (s : State) (id : EntryId) (e : Entry) (st : EntryState) : (s.park id e st).poolUse = s.poolUse := rfl

@[simp] theorem State.park_lines (s : State) (id : EntryId) (e : Entry) (st : EntryState) : (s.park id e st).lines = s.lines := rfl

@[simp] theorem State.park_inputs (s : State) (id : EntryId) (e : Entry) (st : EntryState) : (s.park id e st).inputs = s.inputs := rfl

@[simp] theorem State.park_ports (s : State) (id : EntryId) (e : Entry) (st : EntryState) : (s.park id e st).ports = s.ports := rfl

@[simp] theorem State.park_reached (s : State) (id : EntryId) (e : Entry) (st : EntryState) : (s.park id e st).reached = s.reached := rfl

@[simp] theorem State.park_freeCount (s : State) (id : EntryId) (e : Entry) (st : EntryState) : (s.park id e st).freeCount = s.freeCount := rfl

@[simp] theorem State.park_pending (s : State) (id : EntryId) (e : Entry) (st : EntryState) : (s.park id e st).pending = s.pending := rfl

@[simp] theorem State.park_line (s : State) (id : EntryId) (e : Entry) (st : EntryState) (j : Line) : (s.park id e st).line j = s.line j := rfl

@[simp] theorem State.park_input (s : State) (id : EntryId) (e : Entry) (st : EntryState) (j : Input) : (s.park id e st).input j = s.input j := rfl

@[simp] theorem State.park_heldBy (s : State) (id : EntryId) (e : Entry) (st : EntryState) (j : Port) : (s.park id e st).heldBy j = s.heldBy j := rfl

@[simp] theorem State.park_port (s : State) (id : EntryId) (e : Entry) (st : EntryState) (j : Port) : (s.park id e st).port j = s.port j := rfl

@[simp] theorem State.park_link (s : State) (id : EntryId) (e : Entry) (st : EntryState) (j : Port) : (s.park id e st).link j = s.link j := rfl

@[simp] theorem State.allocate_rstN (s : State) (id : EntryId) (e : Entry) : (s.allocate id e).rstN = s.rstN := rfl

@[simp] theorem State.allocate_rate1 (s : State) (id : EntryId) (e : Entry) : (s.allocate id e).rate1 = s.rate1 := rfl

@[simp] theorem State.allocate_rate0 (s : State) (id : EntryId) (e : Entry) : (s.allocate id e).rate0 = s.rate0 := rfl

@[simp] theorem State.allocate_runTime (s : State) (id : EntryId) (e : Entry) : (s.allocate id e).runTime = s.runTime := rfl

@[simp] theorem State.allocate_refclkCycles (s : State) (id : EntryId) (e : Entry) : (s.allocate id e).refclkCycles = s.refclkCycles := rfl

@[simp] theorem State.allocate_civil (s : State) (id : EntryId) (e : Entry) : (s.allocate id e).civil = s.civil := rfl

@[simp] theorem State.allocate_slew (s : State) (id : EntryId) (e : Entry) : (s.allocate id e).slew = s.slew := rfl

@[simp] theorem State.allocate_step (s : State) (id : EntryId) (e : Entry) : (s.allocate id e).step = s.step := rfl

@[simp] theorem State.allocate_lease (s : State) (id : EntryId) (e : Entry) : (s.allocate id e).lease = s.lease := rfl

@[simp] theorem State.allocate_waiters (s : State) (id : EntryId) (e : Entry) : (s.allocate id e).waiters = s.waiters := rfl

@[simp] theorem State.allocate_mono (s : State) (id : EntryId) (e : Entry) : (s.allocate id e).mono = s.mono := rfl

@[simp] theorem State.allocate_civils (s : State) (id : EntryId) (e : Entry) : (s.allocate id e).civils = s.civils := rfl

@[simp] theorem State.allocate_lines (s : State) (id : EntryId) (e : Entry) : (s.allocate id e).lines = s.lines := rfl

@[simp] theorem State.allocate_inputs (s : State) (id : EntryId) (e : Entry) : (s.allocate id e).inputs = s.inputs := rfl

@[simp] theorem State.allocate_ports (s : State) (id : EntryId) (e : Entry) : (s.allocate id e).ports = s.ports := rfl

@[simp] theorem State.allocate_reached (s : State) (id : EntryId) (e : Entry) : (s.allocate id e).reached = s.reached := rfl

@[simp] theorem State.allocate_freeCount (s : State) (id : EntryId) (e : Entry) : (s.allocate id e).freeCount = s.freeCount := rfl

@[simp] theorem State.allocate_pending (s : State) (id : EntryId) (e : Entry) : (s.allocate id e).pending = s.pending := rfl

@[simp] theorem State.allocate_line (s : State) (id : EntryId) (e : Entry) (j : Line) : (s.allocate id e).line j = s.line j := rfl

@[simp] theorem State.allocate_input (s : State) (id : EntryId) (e : Entry) (j : Input) : (s.allocate id e).input j = s.input j := rfl

@[simp] theorem State.allocate_port (s : State) (id : EntryId) (e : Entry) (j : Port) : (s.allocate id e).port j = s.port j := rfl

@[simp] theorem State.allocate_link (s : State) (id : EntryId) (e : Entry) (j : Port) : (s.allocate id e).link j = s.link j := rfl

@[simp] theorem State.freeEntry_rstN (s : State) (id : EntryId) : (s.freeEntry id).rstN = s.rstN := by
  unfold State.freeEntry; split <;> rfl

@[simp] theorem State.freeEntry_rate1 (s : State) (id : EntryId) : (s.freeEntry id).rate1 = s.rate1 := by
  unfold State.freeEntry; split <;> rfl

@[simp] theorem State.freeEntry_rate0 (s : State) (id : EntryId) : (s.freeEntry id).rate0 = s.rate0 := by
  unfold State.freeEntry; split <;> rfl

@[simp] theorem State.freeEntry_runTime (s : State) (id : EntryId) : (s.freeEntry id).runTime = s.runTime := by
  unfold State.freeEntry; split <;> rfl

@[simp] theorem State.freeEntry_refclkCycles (s : State) (id : EntryId) : (s.freeEntry id).refclkCycles = s.refclkCycles := by
  unfold State.freeEntry; split <;> rfl

@[simp] theorem State.freeEntry_civil (s : State) (id : EntryId) : (s.freeEntry id).civil = s.civil := by
  unfold State.freeEntry; split <;> rfl

@[simp] theorem State.freeEntry_slew (s : State) (id : EntryId) : (s.freeEntry id).slew = s.slew := by
  unfold State.freeEntry; split <;> rfl

@[simp] theorem State.freeEntry_step (s : State) (id : EntryId) : (s.freeEntry id).step = s.step := by
  unfold State.freeEntry; split <;> rfl

@[simp] theorem State.freeEntry_lease (s : State) (id : EntryId) : (s.freeEntry id).lease = s.lease := by
  unfold State.freeEntry; split <;> rfl

@[simp] theorem State.freeEntry_waiters (s : State) (id : EntryId) : (s.freeEntry id).waiters = s.waiters := by
  unfold State.freeEntry; split <;> rfl

@[simp] theorem State.freeEntry_lines (s : State) (id : EntryId) : (s.freeEntry id).lines = s.lines := by
  unfold State.freeEntry; split <;> rfl

@[simp] theorem State.freeEntry_inputs (s : State) (id : EntryId) : (s.freeEntry id).inputs = s.inputs := by
  unfold State.freeEntry; split <;> rfl

@[simp] theorem State.freeEntry_ports (s : State) (id : EntryId) : (s.freeEntry id).ports = s.ports := by
  unfold State.freeEntry; split <;> rfl

@[simp] theorem State.freeEntry_reached (s : State) (id : EntryId) : (s.freeEntry id).reached = s.reached := by
  unfold State.freeEntry; split <;> rfl

@[simp] theorem State.freeEntry_freeCount (s : State) (id : EntryId) : (s.freeEntry id).freeCount = s.freeCount := by
  unfold State.freeEntry; split <;> rfl

@[simp] theorem State.freeEntry_pending (s : State) (id : EntryId) : (s.freeEntry id).pending = s.pending := by
  unfold State.freeEntry; split <;> rfl

@[simp] theorem State.freeEntry_port (s : State) (id : EntryId) (j : Port) : (s.freeEntry id).port j = s.port j := by
  unfold State.freeEntry; split <;> rfl

@[simp] theorem State.freeEntry_link (s : State) (id : EntryId) (j : Port) : (s.freeEntry id).link j = s.link j := by
  unfold State.freeEntry; split <;> rfl

@[simp] theorem State.freeEntry_line (s : State) (id : EntryId) (j : Line) : (s.freeEntry id).line j = s.line j := by
  unfold State.freeEntry; split <;> rfl

@[simp] theorem State.freeEntry_input (s : State) (id : EntryId) (j : Input) : (s.freeEntry id).input j = s.input j := by
  unfold State.freeEntry; split <;> rfl

/-! ### The table, the lists and line actions together: the shell stays -/

/-- Everything but the schedule table, the due lists, the lines and the ports. -/
def State.shell (s : State) : State :=
  { s with slots := State.reset.slots, held := State.reset.held, poolUse := 0, mono := [], civils := [],
           lines := State.reset.lines, ports := State.reset.ports }

@[simp] theorem State.shell_unlist (s : State) (id : EntryId) : (s.unlist id).shell = s.shell := rfl
@[simp] theorem State.shell_setEntry (s : State) (id : EntryId) (e : Entry) : (s.setEntry id e).shell = s.shell := rfl
@[simp] theorem State.shell_setHeld (s : State) (p : Port) (n : Nat) : (s.setHeld p n).shell = s.shell := rfl
@[simp] theorem State.shell_setLists (s : State) (m : List MonoPos) (c : List CivilPos) :
    (s.setLists m c).shell = s.shell := rfl
@[simp] theorem State.shell_armMono (s : State) (id : EntryId) (e : Entry) (due : Nat) (late : Bool) :
    (s.armMono id e due late).shell = s.shell := rfl
@[simp] theorem State.shell_armCivil (s : State) (id : EntryId) (e : Entry) (next : Civil) :
    (s.armCivil id e next).shell = s.shell := rfl
@[simp] theorem State.shell_park (s : State) (id : EntryId) (e : Entry) (st : EntryState) :
    (s.park id e st).shell = s.shell := rfl
@[simp] theorem State.shell_allocate (s : State) (id : EntryId) (e : Entry) : (s.allocate id e).shell = s.shell := rfl
@[simp] theorem State.shell_setLine (s : State) (l : Line) (x : LineState) : (s.setLine l x).shell = s.shell := rfl
@[simp] theorem State.shell_offer (s : State) (p : Port) (r : Record) : (s.offer p r).shell = s.shell := rfl
@[simp] theorem State.shell_offerEach (s : State) (f : Port → List Record) : (s.offerEach f).shell = s.shell := by
  rw [State.offerEach_blocks]; rfl

@[simp] theorem State.shell_freeEntry (s : State) (id : EntryId) : (s.freeEntry id).shell = s.shell := by
  unfold State.freeEntry; split <;> rfl

@[simp] theorem State.shell_endEntry (s : State) (id : EntryId) (r : EndReason) : (s.endEntry id r).shell = s.shell := by
  unfold State.endEntry; split <;> simp

@[simp] theorem State.shell_placeAt (s : State) (id : EntryId) (e : Entry) (m : Option Civil) :
    (s.placeAt id e m).shell = s.shell := by
  unfold State.placeAt; split <;> simp

@[simp] theorem State.shell_askLine (s : State) (a : Option LineAction) (p : Port) (src : Source) :
    (s.askLine a p src).1.shell = s.shell := by
  unfold State.askLine; split <;> [rfl; (split <;> [rfl; (split <;> simp)])]

@[simp] theorem State.shell_fire (s : State) (id : EntryId) (e : Entry) (i : Intended) (late ends : Bool) :
    (s.fire id e i late ends).state.shell = s.shell := by
  unfold State.fire; dsimp only; split <;> simp

@[simp] theorem State.shell_fireMono (s : State) (pos : MonoPos) : (s.fireMono pos).shell = s.shell := by
  unfold State.fireMono
  try dsimp only
  repeat' split
  all_goals simp

@[simp] theorem State.shell_fireCivil (s : State) (pos : CivilPos) : (s.fireCivil pos).shell = s.shell := by
  unfold State.fireCivil
  try dsimp only
  repeat' split
  all_goals simp

@[simp] theorem State.shell_passOver (s : State) (new : Civil) (pos : CivilPos) :
    (s.passOver new pos).shell = s.shell := by
  unfold State.passOver
  try dsimp only
  repeat' split
  all_goals simp

@[simp] theorem State.shell_placeBack (s : State) (new : Civil) (pos : CivilPos) :
    (s.placeBack new pos).shell = s.shell := by
  unfold State.placeBack
  try dsimp only
  repeat' split
  all_goals simp

theorem State.shell_foldl {α : Type} (f : State → α → State) (h : ∀ s a, (f s a).shell = s.shell) (xs : List α)
    (s : State) : (xs.foldl f s).shell = s.shell := by
  induction xs generalizing s with
  | nil => rfl
  | cons x xs ih => rw [List.foldl_cons, ih, h]

@[simp] theorem State.shell_stepPatterns (s : State) (old new : Civil) : (s.stepPatterns old new).shell = s.shell := by
  unfold State.stepPatterns
  split
  · exact State.shell_foldl _ (fun s x => State.shell_passOver s new x) _ _
  · split
    · exact State.shell_foldl _ (fun s x => State.shell_placeBack s new x) _ _
    · rfl

@[simp] theorem State.shell_wake (s : State) (now : Civil) (id : EntryId) : (s.wake now id).shell = s.shell := by
  unfold State.wake
  repeat' split
  all_goals simp

@[simp] theorem State.shell_wakePatterns (s : State) (now : Civil) : (s.wakePatterns now).shell = s.shell :=
  State.shell_foldl _ (fun s i => State.shell_wake s now i) _ _

@[simp] theorem State.shell_sleep (s : State) (id : EntryId) : (s.sleep id).shell = s.shell := by
  unfold State.sleep
  repeat' split
  all_goals simp

@[simp] theorem State.shell_sleepPatterns (s : State) : s.sleepPatterns.shell = s.shell := by
  unfold State.sleepPatterns
  simp only [State.shell_setLists]
  exact State.shell_foldl _ State.shell_sleep _ _

@[simp] theorem State.shell_armByEdge (s : State) (id : EntryId) : (s.armByEdge id).shell = s.shell := by
  unfold State.armByEdge
  repeat' split
  all_goals simp

theorem State.rstN_of_shell {s t : State} (h : s.shell = t.shell) : s.rstN = t.rstN := by
  simp only [State.shell, State.mk.injEq] at h; simp only [h]

theorem State.rate1_of_shell {s t : State} (h : s.shell = t.shell) : s.rate1 = t.rate1 := by
  simp only [State.shell, State.mk.injEq] at h; simp only [h]

theorem State.rate0_of_shell {s t : State} (h : s.shell = t.shell) : s.rate0 = t.rate0 := by
  simp only [State.shell, State.mk.injEq] at h; simp only [h]

theorem State.runTime_of_shell {s t : State} (h : s.shell = t.shell) : s.runTime = t.runTime := by
  simp only [State.shell, State.mk.injEq] at h; simp only [h]

theorem State.refclkCycles_of_shell {s t : State} (h : s.shell = t.shell) : s.refclkCycles = t.refclkCycles := by
  simp only [State.shell, State.mk.injEq] at h; simp only [h]

theorem State.civil_of_shell {s t : State} (h : s.shell = t.shell) : s.civil = t.civil := by
  simp only [State.shell, State.mk.injEq] at h; simp only [h]

theorem State.slew_of_shell {s t : State} (h : s.shell = t.shell) : s.slew = t.slew := by
  simp only [State.shell, State.mk.injEq] at h; simp only [h]

theorem State.step_of_shell {s t : State} (h : s.shell = t.shell) : s.step = t.step := by
  simp only [State.shell, State.mk.injEq] at h; simp only [h]

theorem State.lease_of_shell {s t : State} (h : s.shell = t.shell) : s.lease = t.lease := by
  simp only [State.shell, State.mk.injEq] at h; simp only [h]

theorem State.waiters_of_shell {s t : State} (h : s.shell = t.shell) : s.waiters = t.waiters := by
  simp only [State.shell, State.mk.injEq] at h; simp only [h]

theorem State.inputs_of_shell {s t : State} (h : s.shell = t.shell) : s.inputs = t.inputs := by
  simp only [State.shell, State.mk.injEq] at h; simp only [h]

theorem State.reached_of_shell {s t : State} (h : s.shell = t.shell) : s.reached = t.reached := by
  simp only [State.shell, State.mk.injEq] at h; simp only [h]

theorem State.freeCount_of_shell {s t : State} (h : s.shell = t.shell) : s.freeCount = t.freeCount := by
  simp only [State.shell, State.mk.injEq] at h; simp only [h]

theorem State.pending_of_shell {s t : State} (h : s.shell = t.shell) : s.pending = t.pending := by
  simp only [State.shell, State.mk.injEq] at h; simp only [h]

@[simp] theorem State.endEntry_rstN (s : State) (id : EntryId) (r : EndReason) :
    (s.endEntry id r).rstN = s.rstN :=
  State.rstN_of_shell (State.shell_endEntry s id r)

@[simp] theorem State.endEntry_rate1 (s : State) (id : EntryId) (r : EndReason) :
    (s.endEntry id r).rate1 = s.rate1 :=
  State.rate1_of_shell (State.shell_endEntry s id r)

@[simp] theorem State.endEntry_rate0 (s : State) (id : EntryId) (r : EndReason) :
    (s.endEntry id r).rate0 = s.rate0 :=
  State.rate0_of_shell (State.shell_endEntry s id r)

@[simp] theorem State.endEntry_runTime (s : State) (id : EntryId) (r : EndReason) :
    (s.endEntry id r).runTime = s.runTime :=
  State.runTime_of_shell (State.shell_endEntry s id r)

@[simp] theorem State.endEntry_refclkCycles (s : State) (id : EntryId) (r : EndReason) :
    (s.endEntry id r).refclkCycles = s.refclkCycles :=
  State.refclkCycles_of_shell (State.shell_endEntry s id r)

@[simp] theorem State.endEntry_civil (s : State) (id : EntryId) (r : EndReason) :
    (s.endEntry id r).civil = s.civil :=
  State.civil_of_shell (State.shell_endEntry s id r)

@[simp] theorem State.endEntry_slew (s : State) (id : EntryId) (r : EndReason) :
    (s.endEntry id r).slew = s.slew :=
  State.slew_of_shell (State.shell_endEntry s id r)

@[simp] theorem State.endEntry_step (s : State) (id : EntryId) (r : EndReason) :
    (s.endEntry id r).step = s.step :=
  State.step_of_shell (State.shell_endEntry s id r)

@[simp] theorem State.endEntry_lease (s : State) (id : EntryId) (r : EndReason) :
    (s.endEntry id r).lease = s.lease :=
  State.lease_of_shell (State.shell_endEntry s id r)

@[simp] theorem State.endEntry_waiters (s : State) (id : EntryId) (r : EndReason) :
    (s.endEntry id r).waiters = s.waiters :=
  State.waiters_of_shell (State.shell_endEntry s id r)

@[simp] theorem State.endEntry_inputs (s : State) (id : EntryId) (r : EndReason) :
    (s.endEntry id r).inputs = s.inputs :=
  State.inputs_of_shell (State.shell_endEntry s id r)

@[simp] theorem State.endEntry_reached (s : State) (id : EntryId) (r : EndReason) :
    (s.endEntry id r).reached = s.reached :=
  State.reached_of_shell (State.shell_endEntry s id r)

@[simp] theorem State.endEntry_freeCount (s : State) (id : EntryId) (r : EndReason) :
    (s.endEntry id r).freeCount = s.freeCount :=
  State.freeCount_of_shell (State.shell_endEntry s id r)

@[simp] theorem State.endEntry_pending (s : State) (id : EntryId) (r : EndReason) :
    (s.endEntry id r).pending = s.pending :=
  State.pending_of_shell (State.shell_endEntry s id r)

@[simp] theorem State.endEntry_input (s : State) (id : EntryId) (r : EndReason) (j : Input) :
    (s.endEntry id r).input j = s.input j := by
  simp [State.input]

@[simp] theorem State.placeAt_rstN (s : State) (id : EntryId) (e : Entry) (m : Option Civil) :
    (s.placeAt id e m).rstN = s.rstN :=
  State.rstN_of_shell (State.shell_placeAt s id e m)

@[simp] theorem State.placeAt_rate1 (s : State) (id : EntryId) (e : Entry) (m : Option Civil) :
    (s.placeAt id e m).rate1 = s.rate1 :=
  State.rate1_of_shell (State.shell_placeAt s id e m)

@[simp] theorem State.placeAt_rate0 (s : State) (id : EntryId) (e : Entry) (m : Option Civil) :
    (s.placeAt id e m).rate0 = s.rate0 :=
  State.rate0_of_shell (State.shell_placeAt s id e m)

@[simp] theorem State.placeAt_runTime (s : State) (id : EntryId) (e : Entry) (m : Option Civil) :
    (s.placeAt id e m).runTime = s.runTime :=
  State.runTime_of_shell (State.shell_placeAt s id e m)

@[simp] theorem State.placeAt_refclkCycles (s : State) (id : EntryId) (e : Entry) (m : Option Civil) :
    (s.placeAt id e m).refclkCycles = s.refclkCycles :=
  State.refclkCycles_of_shell (State.shell_placeAt s id e m)

@[simp] theorem State.placeAt_civil (s : State) (id : EntryId) (e : Entry) (m : Option Civil) :
    (s.placeAt id e m).civil = s.civil :=
  State.civil_of_shell (State.shell_placeAt s id e m)

@[simp] theorem State.placeAt_slew (s : State) (id : EntryId) (e : Entry) (m : Option Civil) :
    (s.placeAt id e m).slew = s.slew :=
  State.slew_of_shell (State.shell_placeAt s id e m)

@[simp] theorem State.placeAt_step (s : State) (id : EntryId) (e : Entry) (m : Option Civil) :
    (s.placeAt id e m).step = s.step :=
  State.step_of_shell (State.shell_placeAt s id e m)

@[simp] theorem State.placeAt_lease (s : State) (id : EntryId) (e : Entry) (m : Option Civil) :
    (s.placeAt id e m).lease = s.lease :=
  State.lease_of_shell (State.shell_placeAt s id e m)

@[simp] theorem State.placeAt_waiters (s : State) (id : EntryId) (e : Entry) (m : Option Civil) :
    (s.placeAt id e m).waiters = s.waiters :=
  State.waiters_of_shell (State.shell_placeAt s id e m)

@[simp] theorem State.placeAt_inputs (s : State) (id : EntryId) (e : Entry) (m : Option Civil) :
    (s.placeAt id e m).inputs = s.inputs :=
  State.inputs_of_shell (State.shell_placeAt s id e m)

@[simp] theorem State.placeAt_reached (s : State) (id : EntryId) (e : Entry) (m : Option Civil) :
    (s.placeAt id e m).reached = s.reached :=
  State.reached_of_shell (State.shell_placeAt s id e m)

@[simp] theorem State.placeAt_freeCount (s : State) (id : EntryId) (e : Entry) (m : Option Civil) :
    (s.placeAt id e m).freeCount = s.freeCount :=
  State.freeCount_of_shell (State.shell_placeAt s id e m)

@[simp] theorem State.placeAt_pending (s : State) (id : EntryId) (e : Entry) (m : Option Civil) :
    (s.placeAt id e m).pending = s.pending :=
  State.pending_of_shell (State.shell_placeAt s id e m)

@[simp] theorem State.placeAt_input (s : State) (id : EntryId) (e : Entry) (m : Option Civil) (j : Input) :
    (s.placeAt id e m).input j = s.input j := by
  simp [State.input]

@[simp] theorem State.askLine_rstN (s : State) (x : Option LineAction) (p : Port) (src : Source) :
    (s.askLine x p src).1.rstN = s.rstN :=
  State.rstN_of_shell (State.shell_askLine s x p src)

@[simp] theorem State.askLine_rate1 (s : State) (x : Option LineAction) (p : Port) (src : Source) :
    (s.askLine x p src).1.rate1 = s.rate1 :=
  State.rate1_of_shell (State.shell_askLine s x p src)

@[simp] theorem State.askLine_rate0 (s : State) (x : Option LineAction) (p : Port) (src : Source) :
    (s.askLine x p src).1.rate0 = s.rate0 :=
  State.rate0_of_shell (State.shell_askLine s x p src)

@[simp] theorem State.askLine_runTime (s : State) (x : Option LineAction) (p : Port) (src : Source) :
    (s.askLine x p src).1.runTime = s.runTime :=
  State.runTime_of_shell (State.shell_askLine s x p src)

@[simp] theorem State.askLine_refclkCycles (s : State) (x : Option LineAction) (p : Port) (src : Source) :
    (s.askLine x p src).1.refclkCycles = s.refclkCycles :=
  State.refclkCycles_of_shell (State.shell_askLine s x p src)

@[simp] theorem State.askLine_civil (s : State) (x : Option LineAction) (p : Port) (src : Source) :
    (s.askLine x p src).1.civil = s.civil :=
  State.civil_of_shell (State.shell_askLine s x p src)

@[simp] theorem State.askLine_slew (s : State) (x : Option LineAction) (p : Port) (src : Source) :
    (s.askLine x p src).1.slew = s.slew :=
  State.slew_of_shell (State.shell_askLine s x p src)

@[simp] theorem State.askLine_step (s : State) (x : Option LineAction) (p : Port) (src : Source) :
    (s.askLine x p src).1.step = s.step :=
  State.step_of_shell (State.shell_askLine s x p src)

@[simp] theorem State.askLine_lease (s : State) (x : Option LineAction) (p : Port) (src : Source) :
    (s.askLine x p src).1.lease = s.lease :=
  State.lease_of_shell (State.shell_askLine s x p src)

@[simp] theorem State.askLine_waiters (s : State) (x : Option LineAction) (p : Port) (src : Source) :
    (s.askLine x p src).1.waiters = s.waiters :=
  State.waiters_of_shell (State.shell_askLine s x p src)

@[simp] theorem State.askLine_inputs (s : State) (x : Option LineAction) (p : Port) (src : Source) :
    (s.askLine x p src).1.inputs = s.inputs :=
  State.inputs_of_shell (State.shell_askLine s x p src)

@[simp] theorem State.askLine_reached (s : State) (x : Option LineAction) (p : Port) (src : Source) :
    (s.askLine x p src).1.reached = s.reached :=
  State.reached_of_shell (State.shell_askLine s x p src)

@[simp] theorem State.askLine_freeCount (s : State) (x : Option LineAction) (p : Port) (src : Source) :
    (s.askLine x p src).1.freeCount = s.freeCount :=
  State.freeCount_of_shell (State.shell_askLine s x p src)

@[simp] theorem State.askLine_pending (s : State) (x : Option LineAction) (p : Port) (src : Source) :
    (s.askLine x p src).1.pending = s.pending :=
  State.pending_of_shell (State.shell_askLine s x p src)

@[simp] theorem State.askLine_input (s : State) (x : Option LineAction) (p : Port) (src : Source) (j : Input) :
    (s.askLine x p src).1.input j = s.input j := by
  simp [State.input]

@[simp] theorem State.fire_rstN (s : State) (id : EntryId) (e : Entry) (i : Intended) (late ends : Bool) :
    (s.fire id e i late ends).state.rstN = s.rstN :=
  State.rstN_of_shell (State.shell_fire s id e i late ends)

@[simp] theorem State.fire_rate1 (s : State) (id : EntryId) (e : Entry) (i : Intended) (late ends : Bool) :
    (s.fire id e i late ends).state.rate1 = s.rate1 :=
  State.rate1_of_shell (State.shell_fire s id e i late ends)

@[simp] theorem State.fire_rate0 (s : State) (id : EntryId) (e : Entry) (i : Intended) (late ends : Bool) :
    (s.fire id e i late ends).state.rate0 = s.rate0 :=
  State.rate0_of_shell (State.shell_fire s id e i late ends)

@[simp] theorem State.fire_runTime (s : State) (id : EntryId) (e : Entry) (i : Intended) (late ends : Bool) :
    (s.fire id e i late ends).state.runTime = s.runTime :=
  State.runTime_of_shell (State.shell_fire s id e i late ends)

@[simp] theorem State.fire_refclkCycles (s : State) (id : EntryId) (e : Entry) (i : Intended) (late ends : Bool) :
    (s.fire id e i late ends).state.refclkCycles = s.refclkCycles :=
  State.refclkCycles_of_shell (State.shell_fire s id e i late ends)

@[simp] theorem State.fire_civil (s : State) (id : EntryId) (e : Entry) (i : Intended) (late ends : Bool) :
    (s.fire id e i late ends).state.civil = s.civil :=
  State.civil_of_shell (State.shell_fire s id e i late ends)

@[simp] theorem State.fire_slew (s : State) (id : EntryId) (e : Entry) (i : Intended) (late ends : Bool) :
    (s.fire id e i late ends).state.slew = s.slew :=
  State.slew_of_shell (State.shell_fire s id e i late ends)

@[simp] theorem State.fire_step (s : State) (id : EntryId) (e : Entry) (i : Intended) (late ends : Bool) :
    (s.fire id e i late ends).state.step = s.step :=
  State.step_of_shell (State.shell_fire s id e i late ends)

@[simp] theorem State.fire_lease (s : State) (id : EntryId) (e : Entry) (i : Intended) (late ends : Bool) :
    (s.fire id e i late ends).state.lease = s.lease :=
  State.lease_of_shell (State.shell_fire s id e i late ends)

@[simp] theorem State.fire_waiters (s : State) (id : EntryId) (e : Entry) (i : Intended) (late ends : Bool) :
    (s.fire id e i late ends).state.waiters = s.waiters :=
  State.waiters_of_shell (State.shell_fire s id e i late ends)

@[simp] theorem State.fire_inputs (s : State) (id : EntryId) (e : Entry) (i : Intended) (late ends : Bool) :
    (s.fire id e i late ends).state.inputs = s.inputs :=
  State.inputs_of_shell (State.shell_fire s id e i late ends)

@[simp] theorem State.fire_reached (s : State) (id : EntryId) (e : Entry) (i : Intended) (late ends : Bool) :
    (s.fire id e i late ends).state.reached = s.reached :=
  State.reached_of_shell (State.shell_fire s id e i late ends)

@[simp] theorem State.fire_freeCount (s : State) (id : EntryId) (e : Entry) (i : Intended) (late ends : Bool) :
    (s.fire id e i late ends).state.freeCount = s.freeCount :=
  State.freeCount_of_shell (State.shell_fire s id e i late ends)

@[simp] theorem State.fire_pending (s : State) (id : EntryId) (e : Entry) (i : Intended) (late ends : Bool) :
    (s.fire id e i late ends).state.pending = s.pending :=
  State.pending_of_shell (State.shell_fire s id e i late ends)

@[simp] theorem State.fire_input (s : State) (id : EntryId) (e : Entry) (i : Intended) (late ends : Bool) (j : Input) :
    (s.fire id e i late ends).state.input j = s.input j := by
  simp [State.input]

@[simp] theorem State.fireMono_rstN (s : State) (pos : MonoPos) :
    (s.fireMono pos).rstN = s.rstN :=
  State.rstN_of_shell (State.shell_fireMono s pos)

@[simp] theorem State.fireMono_rate1 (s : State) (pos : MonoPos) :
    (s.fireMono pos).rate1 = s.rate1 :=
  State.rate1_of_shell (State.shell_fireMono s pos)

@[simp] theorem State.fireMono_rate0 (s : State) (pos : MonoPos) :
    (s.fireMono pos).rate0 = s.rate0 :=
  State.rate0_of_shell (State.shell_fireMono s pos)

@[simp] theorem State.fireMono_runTime (s : State) (pos : MonoPos) :
    (s.fireMono pos).runTime = s.runTime :=
  State.runTime_of_shell (State.shell_fireMono s pos)

@[simp] theorem State.fireMono_refclkCycles (s : State) (pos : MonoPos) :
    (s.fireMono pos).refclkCycles = s.refclkCycles :=
  State.refclkCycles_of_shell (State.shell_fireMono s pos)

@[simp] theorem State.fireMono_civil (s : State) (pos : MonoPos) :
    (s.fireMono pos).civil = s.civil :=
  State.civil_of_shell (State.shell_fireMono s pos)

@[simp] theorem State.fireMono_slew (s : State) (pos : MonoPos) :
    (s.fireMono pos).slew = s.slew :=
  State.slew_of_shell (State.shell_fireMono s pos)

@[simp] theorem State.fireMono_step (s : State) (pos : MonoPos) :
    (s.fireMono pos).step = s.step :=
  State.step_of_shell (State.shell_fireMono s pos)

@[simp] theorem State.fireMono_lease (s : State) (pos : MonoPos) :
    (s.fireMono pos).lease = s.lease :=
  State.lease_of_shell (State.shell_fireMono s pos)

@[simp] theorem State.fireMono_waiters (s : State) (pos : MonoPos) :
    (s.fireMono pos).waiters = s.waiters :=
  State.waiters_of_shell (State.shell_fireMono s pos)

@[simp] theorem State.fireMono_inputs (s : State) (pos : MonoPos) :
    (s.fireMono pos).inputs = s.inputs :=
  State.inputs_of_shell (State.shell_fireMono s pos)

@[simp] theorem State.fireMono_reached (s : State) (pos : MonoPos) :
    (s.fireMono pos).reached = s.reached :=
  State.reached_of_shell (State.shell_fireMono s pos)

@[simp] theorem State.fireMono_freeCount (s : State) (pos : MonoPos) :
    (s.fireMono pos).freeCount = s.freeCount :=
  State.freeCount_of_shell (State.shell_fireMono s pos)

@[simp] theorem State.fireMono_pending (s : State) (pos : MonoPos) :
    (s.fireMono pos).pending = s.pending :=
  State.pending_of_shell (State.shell_fireMono s pos)

@[simp] theorem State.fireMono_input (s : State) (pos : MonoPos) (j : Input) :
    (s.fireMono pos).input j = s.input j := by
  simp [State.input]

@[simp] theorem State.fireCivil_rstN (s : State) (pos : CivilPos) :
    (s.fireCivil pos).rstN = s.rstN :=
  State.rstN_of_shell (State.shell_fireCivil s pos)

@[simp] theorem State.fireCivil_rate1 (s : State) (pos : CivilPos) :
    (s.fireCivil pos).rate1 = s.rate1 :=
  State.rate1_of_shell (State.shell_fireCivil s pos)

@[simp] theorem State.fireCivil_rate0 (s : State) (pos : CivilPos) :
    (s.fireCivil pos).rate0 = s.rate0 :=
  State.rate0_of_shell (State.shell_fireCivil s pos)

@[simp] theorem State.fireCivil_runTime (s : State) (pos : CivilPos) :
    (s.fireCivil pos).runTime = s.runTime :=
  State.runTime_of_shell (State.shell_fireCivil s pos)

@[simp] theorem State.fireCivil_refclkCycles (s : State) (pos : CivilPos) :
    (s.fireCivil pos).refclkCycles = s.refclkCycles :=
  State.refclkCycles_of_shell (State.shell_fireCivil s pos)

@[simp] theorem State.fireCivil_civil (s : State) (pos : CivilPos) :
    (s.fireCivil pos).civil = s.civil :=
  State.civil_of_shell (State.shell_fireCivil s pos)

@[simp] theorem State.fireCivil_slew (s : State) (pos : CivilPos) :
    (s.fireCivil pos).slew = s.slew :=
  State.slew_of_shell (State.shell_fireCivil s pos)

@[simp] theorem State.fireCivil_step (s : State) (pos : CivilPos) :
    (s.fireCivil pos).step = s.step :=
  State.step_of_shell (State.shell_fireCivil s pos)

@[simp] theorem State.fireCivil_lease (s : State) (pos : CivilPos) :
    (s.fireCivil pos).lease = s.lease :=
  State.lease_of_shell (State.shell_fireCivil s pos)

@[simp] theorem State.fireCivil_waiters (s : State) (pos : CivilPos) :
    (s.fireCivil pos).waiters = s.waiters :=
  State.waiters_of_shell (State.shell_fireCivil s pos)

@[simp] theorem State.fireCivil_inputs (s : State) (pos : CivilPos) :
    (s.fireCivil pos).inputs = s.inputs :=
  State.inputs_of_shell (State.shell_fireCivil s pos)

@[simp] theorem State.fireCivil_reached (s : State) (pos : CivilPos) :
    (s.fireCivil pos).reached = s.reached :=
  State.reached_of_shell (State.shell_fireCivil s pos)

@[simp] theorem State.fireCivil_freeCount (s : State) (pos : CivilPos) :
    (s.fireCivil pos).freeCount = s.freeCount :=
  State.freeCount_of_shell (State.shell_fireCivil s pos)

@[simp] theorem State.fireCivil_pending (s : State) (pos : CivilPos) :
    (s.fireCivil pos).pending = s.pending :=
  State.pending_of_shell (State.shell_fireCivil s pos)

@[simp] theorem State.fireCivil_input (s : State) (pos : CivilPos) (j : Input) :
    (s.fireCivil pos).input j = s.input j := by
  simp [State.input]

@[simp] theorem State.passOver_rstN (s : State) (new : Civil) (pos : CivilPos) :
    (s.passOver new pos).rstN = s.rstN :=
  State.rstN_of_shell (State.shell_passOver s new pos)

@[simp] theorem State.passOver_rate1 (s : State) (new : Civil) (pos : CivilPos) :
    (s.passOver new pos).rate1 = s.rate1 :=
  State.rate1_of_shell (State.shell_passOver s new pos)

@[simp] theorem State.passOver_rate0 (s : State) (new : Civil) (pos : CivilPos) :
    (s.passOver new pos).rate0 = s.rate0 :=
  State.rate0_of_shell (State.shell_passOver s new pos)

@[simp] theorem State.passOver_runTime (s : State) (new : Civil) (pos : CivilPos) :
    (s.passOver new pos).runTime = s.runTime :=
  State.runTime_of_shell (State.shell_passOver s new pos)

@[simp] theorem State.passOver_refclkCycles (s : State) (new : Civil) (pos : CivilPos) :
    (s.passOver new pos).refclkCycles = s.refclkCycles :=
  State.refclkCycles_of_shell (State.shell_passOver s new pos)

@[simp] theorem State.passOver_civil (s : State) (new : Civil) (pos : CivilPos) :
    (s.passOver new pos).civil = s.civil :=
  State.civil_of_shell (State.shell_passOver s new pos)

@[simp] theorem State.passOver_slew (s : State) (new : Civil) (pos : CivilPos) :
    (s.passOver new pos).slew = s.slew :=
  State.slew_of_shell (State.shell_passOver s new pos)

@[simp] theorem State.passOver_step (s : State) (new : Civil) (pos : CivilPos) :
    (s.passOver new pos).step = s.step :=
  State.step_of_shell (State.shell_passOver s new pos)

@[simp] theorem State.passOver_lease (s : State) (new : Civil) (pos : CivilPos) :
    (s.passOver new pos).lease = s.lease :=
  State.lease_of_shell (State.shell_passOver s new pos)

@[simp] theorem State.passOver_waiters (s : State) (new : Civil) (pos : CivilPos) :
    (s.passOver new pos).waiters = s.waiters :=
  State.waiters_of_shell (State.shell_passOver s new pos)

@[simp] theorem State.passOver_inputs (s : State) (new : Civil) (pos : CivilPos) :
    (s.passOver new pos).inputs = s.inputs :=
  State.inputs_of_shell (State.shell_passOver s new pos)

@[simp] theorem State.passOver_reached (s : State) (new : Civil) (pos : CivilPos) :
    (s.passOver new pos).reached = s.reached :=
  State.reached_of_shell (State.shell_passOver s new pos)

@[simp] theorem State.passOver_freeCount (s : State) (new : Civil) (pos : CivilPos) :
    (s.passOver new pos).freeCount = s.freeCount :=
  State.freeCount_of_shell (State.shell_passOver s new pos)

@[simp] theorem State.passOver_pending (s : State) (new : Civil) (pos : CivilPos) :
    (s.passOver new pos).pending = s.pending :=
  State.pending_of_shell (State.shell_passOver s new pos)

@[simp] theorem State.passOver_input (s : State) (new : Civil) (pos : CivilPos) (j : Input) :
    (s.passOver new pos).input j = s.input j := by
  simp [State.input]

@[simp] theorem State.placeBack_rstN (s : State) (new : Civil) (pos : CivilPos) :
    (s.placeBack new pos).rstN = s.rstN :=
  State.rstN_of_shell (State.shell_placeBack s new pos)

@[simp] theorem State.placeBack_rate1 (s : State) (new : Civil) (pos : CivilPos) :
    (s.placeBack new pos).rate1 = s.rate1 :=
  State.rate1_of_shell (State.shell_placeBack s new pos)

@[simp] theorem State.placeBack_rate0 (s : State) (new : Civil) (pos : CivilPos) :
    (s.placeBack new pos).rate0 = s.rate0 :=
  State.rate0_of_shell (State.shell_placeBack s new pos)

@[simp] theorem State.placeBack_runTime (s : State) (new : Civil) (pos : CivilPos) :
    (s.placeBack new pos).runTime = s.runTime :=
  State.runTime_of_shell (State.shell_placeBack s new pos)

@[simp] theorem State.placeBack_refclkCycles (s : State) (new : Civil) (pos : CivilPos) :
    (s.placeBack new pos).refclkCycles = s.refclkCycles :=
  State.refclkCycles_of_shell (State.shell_placeBack s new pos)

@[simp] theorem State.placeBack_civil (s : State) (new : Civil) (pos : CivilPos) :
    (s.placeBack new pos).civil = s.civil :=
  State.civil_of_shell (State.shell_placeBack s new pos)

@[simp] theorem State.placeBack_slew (s : State) (new : Civil) (pos : CivilPos) :
    (s.placeBack new pos).slew = s.slew :=
  State.slew_of_shell (State.shell_placeBack s new pos)

@[simp] theorem State.placeBack_step (s : State) (new : Civil) (pos : CivilPos) :
    (s.placeBack new pos).step = s.step :=
  State.step_of_shell (State.shell_placeBack s new pos)

@[simp] theorem State.placeBack_lease (s : State) (new : Civil) (pos : CivilPos) :
    (s.placeBack new pos).lease = s.lease :=
  State.lease_of_shell (State.shell_placeBack s new pos)

@[simp] theorem State.placeBack_waiters (s : State) (new : Civil) (pos : CivilPos) :
    (s.placeBack new pos).waiters = s.waiters :=
  State.waiters_of_shell (State.shell_placeBack s new pos)

@[simp] theorem State.placeBack_inputs (s : State) (new : Civil) (pos : CivilPos) :
    (s.placeBack new pos).inputs = s.inputs :=
  State.inputs_of_shell (State.shell_placeBack s new pos)

@[simp] theorem State.placeBack_reached (s : State) (new : Civil) (pos : CivilPos) :
    (s.placeBack new pos).reached = s.reached :=
  State.reached_of_shell (State.shell_placeBack s new pos)

@[simp] theorem State.placeBack_freeCount (s : State) (new : Civil) (pos : CivilPos) :
    (s.placeBack new pos).freeCount = s.freeCount :=
  State.freeCount_of_shell (State.shell_placeBack s new pos)

@[simp] theorem State.placeBack_pending (s : State) (new : Civil) (pos : CivilPos) :
    (s.placeBack new pos).pending = s.pending :=
  State.pending_of_shell (State.shell_placeBack s new pos)

@[simp] theorem State.placeBack_input (s : State) (new : Civil) (pos : CivilPos) (j : Input) :
    (s.placeBack new pos).input j = s.input j := by
  simp [State.input]

@[simp] theorem State.stepPatterns_rstN (s : State) (old new : Civil) :
    (s.stepPatterns old new).rstN = s.rstN :=
  State.rstN_of_shell (State.shell_stepPatterns s old new)

@[simp] theorem State.stepPatterns_rate1 (s : State) (old new : Civil) :
    (s.stepPatterns old new).rate1 = s.rate1 :=
  State.rate1_of_shell (State.shell_stepPatterns s old new)

@[simp] theorem State.stepPatterns_rate0 (s : State) (old new : Civil) :
    (s.stepPatterns old new).rate0 = s.rate0 :=
  State.rate0_of_shell (State.shell_stepPatterns s old new)

@[simp] theorem State.stepPatterns_runTime (s : State) (old new : Civil) :
    (s.stepPatterns old new).runTime = s.runTime :=
  State.runTime_of_shell (State.shell_stepPatterns s old new)

@[simp] theorem State.stepPatterns_refclkCycles (s : State) (old new : Civil) :
    (s.stepPatterns old new).refclkCycles = s.refclkCycles :=
  State.refclkCycles_of_shell (State.shell_stepPatterns s old new)

@[simp] theorem State.stepPatterns_civil (s : State) (old new : Civil) :
    (s.stepPatterns old new).civil = s.civil :=
  State.civil_of_shell (State.shell_stepPatterns s old new)

@[simp] theorem State.stepPatterns_slew (s : State) (old new : Civil) :
    (s.stepPatterns old new).slew = s.slew :=
  State.slew_of_shell (State.shell_stepPatterns s old new)

@[simp] theorem State.stepPatterns_step (s : State) (old new : Civil) :
    (s.stepPatterns old new).step = s.step :=
  State.step_of_shell (State.shell_stepPatterns s old new)

@[simp] theorem State.stepPatterns_lease (s : State) (old new : Civil) :
    (s.stepPatterns old new).lease = s.lease :=
  State.lease_of_shell (State.shell_stepPatterns s old new)

@[simp] theorem State.stepPatterns_waiters (s : State) (old new : Civil) :
    (s.stepPatterns old new).waiters = s.waiters :=
  State.waiters_of_shell (State.shell_stepPatterns s old new)

@[simp] theorem State.stepPatterns_inputs (s : State) (old new : Civil) :
    (s.stepPatterns old new).inputs = s.inputs :=
  State.inputs_of_shell (State.shell_stepPatterns s old new)

@[simp] theorem State.stepPatterns_reached (s : State) (old new : Civil) :
    (s.stepPatterns old new).reached = s.reached :=
  State.reached_of_shell (State.shell_stepPatterns s old new)

@[simp] theorem State.stepPatterns_freeCount (s : State) (old new : Civil) :
    (s.stepPatterns old new).freeCount = s.freeCount :=
  State.freeCount_of_shell (State.shell_stepPatterns s old new)

@[simp] theorem State.stepPatterns_pending (s : State) (old new : Civil) :
    (s.stepPatterns old new).pending = s.pending :=
  State.pending_of_shell (State.shell_stepPatterns s old new)

@[simp] theorem State.stepPatterns_input (s : State) (old new : Civil) (j : Input) :
    (s.stepPatterns old new).input j = s.input j := by
  simp [State.input]

@[simp] theorem State.wake_rstN (s : State) (now : Civil) (id : EntryId) :
    (s.wake now id).rstN = s.rstN :=
  State.rstN_of_shell (State.shell_wake s now id)

@[simp] theorem State.wake_rate1 (s : State) (now : Civil) (id : EntryId) :
    (s.wake now id).rate1 = s.rate1 :=
  State.rate1_of_shell (State.shell_wake s now id)

@[simp] theorem State.wake_rate0 (s : State) (now : Civil) (id : EntryId) :
    (s.wake now id).rate0 = s.rate0 :=
  State.rate0_of_shell (State.shell_wake s now id)

@[simp] theorem State.wake_runTime (s : State) (now : Civil) (id : EntryId) :
    (s.wake now id).runTime = s.runTime :=
  State.runTime_of_shell (State.shell_wake s now id)

@[simp] theorem State.wake_refclkCycles (s : State) (now : Civil) (id : EntryId) :
    (s.wake now id).refclkCycles = s.refclkCycles :=
  State.refclkCycles_of_shell (State.shell_wake s now id)

@[simp] theorem State.wake_civil (s : State) (now : Civil) (id : EntryId) :
    (s.wake now id).civil = s.civil :=
  State.civil_of_shell (State.shell_wake s now id)

@[simp] theorem State.wake_slew (s : State) (now : Civil) (id : EntryId) :
    (s.wake now id).slew = s.slew :=
  State.slew_of_shell (State.shell_wake s now id)

@[simp] theorem State.wake_step (s : State) (now : Civil) (id : EntryId) :
    (s.wake now id).step = s.step :=
  State.step_of_shell (State.shell_wake s now id)

@[simp] theorem State.wake_lease (s : State) (now : Civil) (id : EntryId) :
    (s.wake now id).lease = s.lease :=
  State.lease_of_shell (State.shell_wake s now id)

@[simp] theorem State.wake_waiters (s : State) (now : Civil) (id : EntryId) :
    (s.wake now id).waiters = s.waiters :=
  State.waiters_of_shell (State.shell_wake s now id)

@[simp] theorem State.wake_inputs (s : State) (now : Civil) (id : EntryId) :
    (s.wake now id).inputs = s.inputs :=
  State.inputs_of_shell (State.shell_wake s now id)

@[simp] theorem State.wake_reached (s : State) (now : Civil) (id : EntryId) :
    (s.wake now id).reached = s.reached :=
  State.reached_of_shell (State.shell_wake s now id)

@[simp] theorem State.wake_freeCount (s : State) (now : Civil) (id : EntryId) :
    (s.wake now id).freeCount = s.freeCount :=
  State.freeCount_of_shell (State.shell_wake s now id)

@[simp] theorem State.wake_pending (s : State) (now : Civil) (id : EntryId) :
    (s.wake now id).pending = s.pending :=
  State.pending_of_shell (State.shell_wake s now id)

@[simp] theorem State.wake_input (s : State) (now : Civil) (id : EntryId) (j : Input) :
    (s.wake now id).input j = s.input j := by
  simp [State.input]

@[simp] theorem State.wakePatterns_rstN (s : State) (now : Civil) :
    (s.wakePatterns now).rstN = s.rstN :=
  State.rstN_of_shell (State.shell_wakePatterns s now)

@[simp] theorem State.wakePatterns_rate1 (s : State) (now : Civil) :
    (s.wakePatterns now).rate1 = s.rate1 :=
  State.rate1_of_shell (State.shell_wakePatterns s now)

@[simp] theorem State.wakePatterns_rate0 (s : State) (now : Civil) :
    (s.wakePatterns now).rate0 = s.rate0 :=
  State.rate0_of_shell (State.shell_wakePatterns s now)

@[simp] theorem State.wakePatterns_runTime (s : State) (now : Civil) :
    (s.wakePatterns now).runTime = s.runTime :=
  State.runTime_of_shell (State.shell_wakePatterns s now)

@[simp] theorem State.wakePatterns_refclkCycles (s : State) (now : Civil) :
    (s.wakePatterns now).refclkCycles = s.refclkCycles :=
  State.refclkCycles_of_shell (State.shell_wakePatterns s now)

@[simp] theorem State.wakePatterns_civil (s : State) (now : Civil) :
    (s.wakePatterns now).civil = s.civil :=
  State.civil_of_shell (State.shell_wakePatterns s now)

@[simp] theorem State.wakePatterns_slew (s : State) (now : Civil) :
    (s.wakePatterns now).slew = s.slew :=
  State.slew_of_shell (State.shell_wakePatterns s now)

@[simp] theorem State.wakePatterns_step (s : State) (now : Civil) :
    (s.wakePatterns now).step = s.step :=
  State.step_of_shell (State.shell_wakePatterns s now)

@[simp] theorem State.wakePatterns_lease (s : State) (now : Civil) :
    (s.wakePatterns now).lease = s.lease :=
  State.lease_of_shell (State.shell_wakePatterns s now)

@[simp] theorem State.wakePatterns_waiters (s : State) (now : Civil) :
    (s.wakePatterns now).waiters = s.waiters :=
  State.waiters_of_shell (State.shell_wakePatterns s now)

@[simp] theorem State.wakePatterns_inputs (s : State) (now : Civil) :
    (s.wakePatterns now).inputs = s.inputs :=
  State.inputs_of_shell (State.shell_wakePatterns s now)

@[simp] theorem State.wakePatterns_reached (s : State) (now : Civil) :
    (s.wakePatterns now).reached = s.reached :=
  State.reached_of_shell (State.shell_wakePatterns s now)

@[simp] theorem State.wakePatterns_freeCount (s : State) (now : Civil) :
    (s.wakePatterns now).freeCount = s.freeCount :=
  State.freeCount_of_shell (State.shell_wakePatterns s now)

@[simp] theorem State.wakePatterns_pending (s : State) (now : Civil) :
    (s.wakePatterns now).pending = s.pending :=
  State.pending_of_shell (State.shell_wakePatterns s now)

@[simp] theorem State.wakePatterns_input (s : State) (now : Civil) (j : Input) :
    (s.wakePatterns now).input j = s.input j := by
  simp [State.input]

@[simp] theorem State.sleep_rstN (s : State) (id : EntryId) :
    (s.sleep id).rstN = s.rstN :=
  State.rstN_of_shell (State.shell_sleep s id)

@[simp] theorem State.sleep_rate1 (s : State) (id : EntryId) :
    (s.sleep id).rate1 = s.rate1 :=
  State.rate1_of_shell (State.shell_sleep s id)

@[simp] theorem State.sleep_rate0 (s : State) (id : EntryId) :
    (s.sleep id).rate0 = s.rate0 :=
  State.rate0_of_shell (State.shell_sleep s id)

@[simp] theorem State.sleep_runTime (s : State) (id : EntryId) :
    (s.sleep id).runTime = s.runTime :=
  State.runTime_of_shell (State.shell_sleep s id)

@[simp] theorem State.sleep_refclkCycles (s : State) (id : EntryId) :
    (s.sleep id).refclkCycles = s.refclkCycles :=
  State.refclkCycles_of_shell (State.shell_sleep s id)

@[simp] theorem State.sleep_civil (s : State) (id : EntryId) :
    (s.sleep id).civil = s.civil :=
  State.civil_of_shell (State.shell_sleep s id)

@[simp] theorem State.sleep_slew (s : State) (id : EntryId) :
    (s.sleep id).slew = s.slew :=
  State.slew_of_shell (State.shell_sleep s id)

@[simp] theorem State.sleep_step (s : State) (id : EntryId) :
    (s.sleep id).step = s.step :=
  State.step_of_shell (State.shell_sleep s id)

@[simp] theorem State.sleep_lease (s : State) (id : EntryId) :
    (s.sleep id).lease = s.lease :=
  State.lease_of_shell (State.shell_sleep s id)

@[simp] theorem State.sleep_waiters (s : State) (id : EntryId) :
    (s.sleep id).waiters = s.waiters :=
  State.waiters_of_shell (State.shell_sleep s id)

@[simp] theorem State.sleep_inputs (s : State) (id : EntryId) :
    (s.sleep id).inputs = s.inputs :=
  State.inputs_of_shell (State.shell_sleep s id)

@[simp] theorem State.sleep_reached (s : State) (id : EntryId) :
    (s.sleep id).reached = s.reached :=
  State.reached_of_shell (State.shell_sleep s id)

@[simp] theorem State.sleep_freeCount (s : State) (id : EntryId) :
    (s.sleep id).freeCount = s.freeCount :=
  State.freeCount_of_shell (State.shell_sleep s id)

@[simp] theorem State.sleep_pending (s : State) (id : EntryId) :
    (s.sleep id).pending = s.pending :=
  State.pending_of_shell (State.shell_sleep s id)

@[simp] theorem State.sleep_input (s : State) (id : EntryId) (j : Input) :
    (s.sleep id).input j = s.input j := by
  simp [State.input]

@[simp] theorem State.sleepPatterns_rstN (s : State)  :
    (s.sleepPatterns).rstN = s.rstN :=
  State.rstN_of_shell (State.shell_sleepPatterns s)

@[simp] theorem State.sleepPatterns_rate1 (s : State)  :
    (s.sleepPatterns).rate1 = s.rate1 :=
  State.rate1_of_shell (State.shell_sleepPatterns s)

@[simp] theorem State.sleepPatterns_rate0 (s : State)  :
    (s.sleepPatterns).rate0 = s.rate0 :=
  State.rate0_of_shell (State.shell_sleepPatterns s)

@[simp] theorem State.sleepPatterns_runTime (s : State)  :
    (s.sleepPatterns).runTime = s.runTime :=
  State.runTime_of_shell (State.shell_sleepPatterns s)

@[simp] theorem State.sleepPatterns_refclkCycles (s : State)  :
    (s.sleepPatterns).refclkCycles = s.refclkCycles :=
  State.refclkCycles_of_shell (State.shell_sleepPatterns s)

@[simp] theorem State.sleepPatterns_civil (s : State)  :
    (s.sleepPatterns).civil = s.civil :=
  State.civil_of_shell (State.shell_sleepPatterns s)

@[simp] theorem State.sleepPatterns_slew (s : State)  :
    (s.sleepPatterns).slew = s.slew :=
  State.slew_of_shell (State.shell_sleepPatterns s)

@[simp] theorem State.sleepPatterns_step (s : State)  :
    (s.sleepPatterns).step = s.step :=
  State.step_of_shell (State.shell_sleepPatterns s)

@[simp] theorem State.sleepPatterns_lease (s : State)  :
    (s.sleepPatterns).lease = s.lease :=
  State.lease_of_shell (State.shell_sleepPatterns s)

@[simp] theorem State.sleepPatterns_waiters (s : State)  :
    (s.sleepPatterns).waiters = s.waiters :=
  State.waiters_of_shell (State.shell_sleepPatterns s)

@[simp] theorem State.sleepPatterns_inputs (s : State)  :
    (s.sleepPatterns).inputs = s.inputs :=
  State.inputs_of_shell (State.shell_sleepPatterns s)

@[simp] theorem State.sleepPatterns_reached (s : State)  :
    (s.sleepPatterns).reached = s.reached :=
  State.reached_of_shell (State.shell_sleepPatterns s)

@[simp] theorem State.sleepPatterns_freeCount (s : State)  :
    (s.sleepPatterns).freeCount = s.freeCount :=
  State.freeCount_of_shell (State.shell_sleepPatterns s)

@[simp] theorem State.sleepPatterns_pending (s : State)  :
    (s.sleepPatterns).pending = s.pending :=
  State.pending_of_shell (State.shell_sleepPatterns s)

@[simp] theorem State.sleepPatterns_input (s : State)  (j : Input) :
    (s.sleepPatterns).input j = s.input j := by
  simp [State.input]

@[simp] theorem State.armByEdge_rstN (s : State) (id : EntryId) :
    (s.armByEdge id).rstN = s.rstN :=
  State.rstN_of_shell (State.shell_armByEdge s id)

@[simp] theorem State.armByEdge_rate1 (s : State) (id : EntryId) :
    (s.armByEdge id).rate1 = s.rate1 :=
  State.rate1_of_shell (State.shell_armByEdge s id)

@[simp] theorem State.armByEdge_rate0 (s : State) (id : EntryId) :
    (s.armByEdge id).rate0 = s.rate0 :=
  State.rate0_of_shell (State.shell_armByEdge s id)

@[simp] theorem State.armByEdge_runTime (s : State) (id : EntryId) :
    (s.armByEdge id).runTime = s.runTime :=
  State.runTime_of_shell (State.shell_armByEdge s id)

@[simp] theorem State.armByEdge_refclkCycles (s : State) (id : EntryId) :
    (s.armByEdge id).refclkCycles = s.refclkCycles :=
  State.refclkCycles_of_shell (State.shell_armByEdge s id)

@[simp] theorem State.armByEdge_civil (s : State) (id : EntryId) :
    (s.armByEdge id).civil = s.civil :=
  State.civil_of_shell (State.shell_armByEdge s id)

@[simp] theorem State.armByEdge_slew (s : State) (id : EntryId) :
    (s.armByEdge id).slew = s.slew :=
  State.slew_of_shell (State.shell_armByEdge s id)

@[simp] theorem State.armByEdge_step (s : State) (id : EntryId) :
    (s.armByEdge id).step = s.step :=
  State.step_of_shell (State.shell_armByEdge s id)

@[simp] theorem State.armByEdge_lease (s : State) (id : EntryId) :
    (s.armByEdge id).lease = s.lease :=
  State.lease_of_shell (State.shell_armByEdge s id)

@[simp] theorem State.armByEdge_waiters (s : State) (id : EntryId) :
    (s.armByEdge id).waiters = s.waiters :=
  State.waiters_of_shell (State.shell_armByEdge s id)

@[simp] theorem State.armByEdge_inputs (s : State) (id : EntryId) :
    (s.armByEdge id).inputs = s.inputs :=
  State.inputs_of_shell (State.shell_armByEdge s id)

@[simp] theorem State.armByEdge_reached (s : State) (id : EntryId) :
    (s.armByEdge id).reached = s.reached :=
  State.reached_of_shell (State.shell_armByEdge s id)

@[simp] theorem State.armByEdge_freeCount (s : State) (id : EntryId) :
    (s.armByEdge id).freeCount = s.freeCount :=
  State.freeCount_of_shell (State.shell_armByEdge s id)

@[simp] theorem State.armByEdge_pending (s : State) (id : EntryId) :
    (s.armByEdge id).pending = s.pending :=
  State.pending_of_shell (State.shell_armByEdge s id)

@[simp] theorem State.armByEdge_input (s : State) (id : EntryId) (j : Input) :
    (s.armByEdge id).input j = s.input j := by
  simp [State.input]

end Sys2Proof.Machine
end

