-- ==== Sys2Proof/Laws/Operands.lean ====
section
/-! SUPPORT. Fields of an argument field read back: what `toBytes` and `signedBytes` send is what `fieldAt` and
`signedAt` take (R194).
-/

namespace Sys2Proof.Machine

@[simp] theorem toBytes_length (n v : Nat) : (toBytes n v).length = n := by
  induction n generalizing v with
  | zero => rfl
  | succ n ih => simp [toBytes, ih]

theorem fromBytes_toBytes (n v : Nat) : fromBytes (toBytes n v) = v % 256 ^ n := by
  induction n generalizing v with
  | zero => simp [toBytes, fromBytes, Nat.mod_one]
  | succ n ih =>
    have h : v % 256 ^ (n + 1) = v % 256 + 256 * (v / 256 % 256 ^ n) := by
      rw [Nat.pow_succ, Nat.mul_comm, Nat.mod_mul]
    simp [toBytes, fromBytes, ih, h]

theorem fromBytes_lt (bs : List Byte) : fromBytes bs < 256 ^ bs.length := by
  induction bs with
  | nil => simp [fromBytes]
  | cons b bs ih =>
    have hb : b.toNat < 256 := b.isLt
    simp only [fromBytes, List.length_cons, Nat.pow_succ]
    omega

theorem fieldAt_lt (args : List Byte) (at0 n : Nat) : fieldAt args at0 n < 256 ^ n := by
  refine lt_of_lt_of_le (fromBytes_lt _) (Nat.pow_le_pow_right (by decide) ?_)
  simp

/-- A field that stands at the front. -/
theorem fieldAt_zero (n v : Nat) (rest : List Byte) (h : v < 256 ^ n) : fieldAt (toBytes n v ++ rest) 0 n = v := by
  simp only [fieldAt, List.drop_zero]
  rw [List.take_left' (toBytes_length n v), fromBytes_toBytes, Nat.mod_eq_of_lt h]

@[simp] theorem fieldAt_cons (b : Byte) (args : List Byte) (at0 n : Nat) :
    fieldAt (b :: args) (at0 + 1) n = fieldAt args at0 n := by
  simp [fieldAt]

theorem fieldAt_append_right (before args : List Byte) (at0 n : Nat) :
    fieldAt (before ++ args) (before.length + at0) n = fieldAt args at0 n := by
  rw [fieldAt, List.drop_append, List.drop_eq_nil_of_le (by omega), List.nil_append, Nat.add_sub_cancel_left, fieldAt]

/-- A field that stands after `before`. -/
theorem fieldAt_after (before rest : List Byte) (n v : Nat) (h : v < 256 ^ n) :
    fieldAt (before ++ (toBytes n v ++ rest)) before.length n = v := by
  have := fieldAt_append_right before (toBytes n v ++ rest) 0 n
  rw [Nat.add_zero] at this
  rw [this, fieldAt_zero n v rest h]

theorem fieldAt_one (b : Byte) (args : List Byte) : fieldAt (b :: args) 0 1 = b.toNat := by
  simp [fieldAt, fromBytes]

@[simp] theorem byteAt_zero (b : Byte) (args : List Byte) : byteAt (b :: args) 0 = b := rfl

@[simp] theorem byteAt_cons (b : Byte) (args : List Byte) (i : Nat) : byteAt (b :: args) (i + 1) = byteAt args i := rfl

/-- A two's-complement field in its range. -/
theorem toSigned_emod (n : Nat) (hn : 0 < n) (v : Int) (hl : -(2 ^ (8 * n - 1)) ≤ v) (hu : v < 2 ^ (8 * n - 1)) :
    toSigned n (v % 2 ^ (8 * n)).toNat = v := by
  obtain ⟨k, hk⟩ : ∃ k, 8 * n = k + 1 := ⟨8 * n - 1, by omega⟩
  have h2 : (2 : Int) ^ (k + 1) = 2 * 2 ^ k := by ring
  have h2' : (2 : Nat) ^ (k + 1) = 2 * 2 ^ k := by ring
  have hp : (0 : Int) < 2 ^ k := by positivity
  simp only [toSigned, hk, Nat.add_sub_cancel] at *
  rw [h2]
  rcases lt_or_ge v 0 with hv | hv
  · have hm : v % (2 * 2 ^ k) = v + 2 * 2 ^ k := by
      rw [← Int.add_emod_right, Int.emod_eq_of_lt] <;> omega
    rw [hm]
    have : ¬ ((v + 2 * 2 ^ k).toNat < 2 ^ k) := by
      have hc : ((2 ^ k : Nat) : Int) = 2 ^ k := by push_cast; rfl
      omega
    rw [if_neg this]
    omega
  · have hm : v % (2 * 2 ^ k) = v := Int.emod_eq_of_lt hv (by omega)
    rw [hm]
    have : v.toNat < 2 ^ k := by
      have hc : ((2 ^ k : Nat) : Int) = 2 ^ k := by push_cast; rfl
      omega
    rw [if_pos this]
    omega

theorem signedBytes_lt (n : Nat) (v : Int) : (v % 2 ^ (8 * n)).toNat < 256 ^ n := by
  have h : (256 : Nat) ^ n = 2 ^ (8 * n) := by rw [Nat.pow_mul]
  have hp : (0 : Int) < 2 ^ (8 * n) := by positivity
  have := Int.emod_lt_of_pos v hp
  have := Int.emod_nonneg v hp.ne'
  have hc : ((2 ^ (8 * n) : Nat) : Int) = 2 ^ (8 * n) := by push_cast; rfl
  omega

@[simp] theorem signedBytes_length (n : Nat) (v : Int) : (signedBytes n v).length = n := toBytes_length _ _

/-- A signed field that stands at the front. -/
theorem signedAt_zero (n : Nat) (hn : 0 < n) (v : Int) (rest : List Byte) (hl : -(2 ^ (8 * n - 1)) ≤ v)
    (hu : v < 2 ^ (8 * n - 1)) : signedAt (signedBytes n v ++ rest) 0 n = v := by
  rw [signedAt, signedBytes, fieldAt_zero _ _ _ (signedBytes_lt n v), toSigned_emod n hn v hl hu]

end Sys2Proof.Machine
end

