-- ==== Sys2Proof/Laws/Requests.lean ====
section
/-! SUPPORT. What a request comes to once its length, its requester and its entry handle have been checked, and the
arguments that more than one request decodes.
-/

namespace Sys2Proof.Machine

theorem State.setPort_self (s : State) (p : Port) : s.setPort p (s.port p) = s := by
  simp [State.setPort, State.port]

/-- A request of the right length is carried out on its argument field. -/
theorem State.serve_withLength {s : State} {p : Port} {tag code : Byte} {args : List Byte} {n : Nat}
    (h : Requested s p tag code args) (hn : args.length = n) (run : List Byte → State → State × Reply) :
    s.serve p code (withLength n run) =
      (run args (s.takeRequest p)).1.respond p tag code (run args (s.takeRequest p)).2 := by
  rw [State.serve_of_requested h, withLength_eq hn]

theorem State.holds_of_lease {s : State} {p : Port} {l : Lease} (h : s.lease = some l) (hp : l.holder = p) :
    s.holds p = true := by
  simp [State.holds, h, hp]

theorem State.holds_eq_false {s : State} {p : Port} (h : ∀ l : Lease, s.lease = some l → l.holder ≠ p) :
    s.holds p = false := by
  unfold State.holds
  cases hl : s.lease with
  | none => rfl
  | some l => simp [h l hl]

/-- A civil-change request of the holder is carried out on its argument field (R25). -/
theorem State.serve_civilChange {s : State} {p : Port} {tag code : Byte} {args : List Byte} {n : Nat}
    (h : Requested s p tag code args) (hn : args.length = n) (hp : s.holds p = true)
    (run : List Byte → State → State × Reply) :
    s.serve p code (civilChange p n run) =
      (run args (s.takeRequest p)).1.respond p tag code (run args (s.takeRequest p)).2 := by
  rw [civilChange, State.serve_withLength h hn, State.takeRequest_holds, if_pos hp]

theorem decodeId_ofNat (id : EntryId) : decodeId (BitVec.ofNat 8 id.val) = some id := by
  have h : id.val % 256 = id.val := Nat.mod_eq_of_lt (by omega)
  simp [decodeId, h]

/-- A handle that names an entry of the requester passes the checks of R44. -/
theorem withEntry_of_owner {s : State} {p : Port} {id : EntryId} {e : Entry}
    (run : EntryId → Entry → State → State × Reply) (he : (s.slot id).entry = some e) (ho : e.owner = p) :
    withEntry p run [BitVec.ofNat 8 id.val, (s.slot id).gen] s = run id e s := by
  rw [withEntry, withLength_eq (by rfl)]
  simp [decodeId_ofNat, he, ho]

theorem State.quotaOk_iff (s : State) (p : Port) : s.quotaOk p = true ↔ (s.heldBy p < 8 ∨ s.poolUse < 32) := by
  unfold State.quotaOk
  rw [Bool.or_eq_true, decide_eq_true_iff, decide_eq_true_iff]
  rfl

theorem civilBytes_length (c : Civil) : c.bytes.length = 12 := by simp [Civil.bytes]

/-- A civil record sent with any weekday byte is read back, if it is well formed (R6). -/
theorem decodeCivil_bytes (c : Civil) (weekday : Byte) (hf : c.fits) :
    decodeCivil (c.bytes.take 11 ++ [weekday]) = if c.wellFormed then some c else none := by
  obtain ⟨h1, h2, h3, h4, h5, h6, h7⟩ := hf
  obtain ⟨y, mo, d, h, mi, se, us⟩ := c
  simp only at h1 h2 h3 h4 h5 h6 h7
  have e : (Civil.bytes ⟨y, mo, d, h, mi, se, us⟩).take 11 ++ [weekday] =
      toBytes 2 y ++ (toBytes 1 mo ++ (toBytes 1 d ++ (toBytes 1 h ++ (toBytes 1 mi ++ (toBytes 1 se ++
        (toBytes 4 us ++ [weekday])))))) := by
    simp [Civil.bytes, toBytes]
  rw [e]
  have f1 := fieldAt_zero 2 y (toBytes 1 mo ++ (toBytes 1 d ++ (toBytes 1 h ++ (toBytes 1 mi ++ (toBytes 1 se ++
        (toBytes 4 us ++ [weekday])))))) h1
  simp only [decodeCivil, f1]
  have step : ∀ (n v k m : Nat) (rest : List Byte), fieldAt (toBytes n v ++ rest) (n + k) m = fieldAt rest k m := by
    intro n v k m rest
    have := fieldAt_append_right (toBytes n v) rest k m
    rwa [toBytes_length] at this
  have f2 := (step 2 y 0 1 _).trans (fieldAt_zero 1 mo (toBytes 1 d ++ (toBytes 1 h ++ (toBytes 1 mi ++ (toBytes 1 se ++
        (toBytes 4 us ++ [weekday]))))) h2)
  have f3 := (step 2 y 1 1 _).trans ((step 1 mo 0 1 _).trans (fieldAt_zero 1 d (toBytes 1 h ++ (toBytes 1 mi ++
        (toBytes 1 se ++ (toBytes 4 us ++ [weekday])))) h3))
  have f4 := (step 2 y 2 1 _).trans ((step 1 mo 1 1 _).trans ((step 1 d 0 1 _).trans (fieldAt_zero 1 h (toBytes 1 mi ++
        (toBytes 1 se ++ (toBytes 4 us ++ [weekday]))) h4)))
  have f5 := (step 2 y 3 1 _).trans ((step 1 mo 2 1 _).trans ((step 1 d 1 1 _).trans ((step 1 h 0 1 _).trans
        (fieldAt_zero 1 mi (toBytes 1 se ++ (toBytes 4 us ++ [weekday])) h5))))
  have f6 := (step 2 y 4 1 _).trans ((step 1 mo 3 1 _).trans ((step 1 d 2 1 _).trans ((step 1 h 1 1 _).trans
        ((step 1 mi 0 1 _).trans (fieldAt_zero 1 se (toBytes 4 us ++ [weekday]) h6)))))
  have f7 := (step 2 y 5 4 _).trans ((step 1 mo 4 4 _).trans ((step 1 d 3 4 _).trans ((step 1 h 2 4 _).trans
        ((step 1 mi 1 4 _).trans ((step 1 se 0 4 _).trans (fieldAt_zero 4 us [weekday] h7))))))
  simp only [f2, f3, f4, f5, f6, f7]

theorem decodeStall_eq (b : Byte) :
    decodeStall b = if b.toNat ≤ 1 then some (if b = 0 then .keep else .release) else none := by
  revert b
  decide

end Sys2Proof.Machine
end

