-- ==== Sys2Proof/Laws/Advance.lean ====
section
/-! SUPPORT. What holds the next advance back, condition by condition, what a receive line's operations do, and what a
stale ACK does.
-/

namespace Sys2Proof.Machine

theorem laterThan_iff (now : Nat) (o : Option Nat) : laterThan now o = true ↔ ∀ t : Nat, o = some t → now < t := by
  cases o <;> simp [laterThan]

theorem Link.gapOver_iff (l : Link) (now : Nat) :
    l.gapOver now = true ↔
      l.arriving = none ∧
      ∃ g : Nat, (l.rx = .length g ∨ ∃ len chars, l.rx = .body len chars g) ∧ g + Config.gapLimit < now := by
  unfold Link.gapOver
  cases l.arriving <;> cases l.rx <;> simp

theorem Link.spaceLong_iff (l : Link) (now : Nat) :
    l.spaceLong now = true ↔ ∃ t : Nat, l.spaceSince = some t ∧ t + Config.breakTime ≤ now := by
  unfold Link.spaceLong
  cases l.spaceSince <;> simp

theorem State.monoDue_iff (s : State) : s.monoDue = true ↔ ∃ x rest, s.mono = x :: rest ∧ x.due ≤ s.runTime := by
  unfold State.monoDue
  cases s.mono <;> simp

theorem State.civilDue_iff (s : State) :
    s.civilDue = true ↔ ∃ x rest c, s.civils = x :: rest ∧ s.civil = some c ∧ x.next.count ≤ c.count := by
  have key : ∀ (count : Civil → Nat) (xs : List CivilPos) (o : Option Civil),
      xs.head?.any (fun x => o.any (fun c => count x.next ≤ count c)) = true ↔
        ∃ x rest c, xs = x :: rest ∧ o = some c ∧ count x.next ≤ count c := by
    intro count xs o
    cases xs <;> cases o <;> simp
  exact key Civil.count _ _

theorem State.lagWithin_iff (s : State) :
    s.lagWithin = true ↔ ∀ x ∈ s.mono, x.late = false → s.runTime + 1 < x.due + Config.firingLag := by
  have h : ∀ (b : Bool) (q : Prop), (b = true ∨ q) ↔ (b = false → q) := by
    intro b q
    cases b <;> simp
  simp only [State.lagWithin, List.all_eq_true, Bool.or_eq_true, decide_eq_true_eq, h]

/-- R79: a period is no shorter than the lag allowed, so the next due of an on-time firing lies after now. -/
theorem nextDue_onTime {now due first period : Nat} (hp : Config.firingLag ≤ period)
    (hl : now < due + Config.firingLag) (hr : due + period < Config.runTimeLimit) :
    now < nextDue now due first period false := by
  simp only [nextDue, Bool.false_eq_true, if_false, endInstant, hr, if_true]
  omega

/-- A condition on every element of a vector, position by position. -/
theorem all_toList_iff {α : Type} {n : Nat} (v : Vector α n) (f : α → Bool) :
    v.toList.all f = true ↔ ∀ i : Fin n, f v[i] = true := by
  rw [List.all_eq_true]
  constructor
  · intro h i
    exact h _ (by simp)
  · intro h x hx
    obtain ⟨i, hi, rfl⟩ := List.getElem_of_mem hx
    simpa using h ⟨i, by simpa using hi⟩

/-- All that must have been taken before the next advance. -/
theorem State.settled_iff (s : State) :
    s.settled = true ↔
      (s.reached.mono = true → s.monoDue = false) ∧ (s.reached.civil = true → s.civilDue = false) ∧
      s.lagWithin = true ∧
      laterThan s.runTime (s.lease.map (fun l => l.expiry)) = true ∧
      (∀ l : Line, laterThan s.runTime ((s.line l).pulse.map (fun x => x.endAt)) = true) ∧
      (∀ i : Input, laterThan s.runTime ((s.input i).claim.bind (fun c => c.holdoffEnd)) = true) ∧
      (∀ p : Port,
        laterThan s.runTime (s.port p).engine.ackEnd = true ∧ laterThan s.runTime (s.port p).engine.backoffEnd = true ∧
        (s.link p).gapOver s.runTime = false ∧ (s.link p).spaceLong s.runTime = false) ∧
      s.step.bind (fun x => x.reached) = none := by
  have h1 : ∀ a b : Bool, (!(a && b)) = true ↔ (a = true → b = false) := by decide
  unfold State.settled
  simp only [Bool.and_eq_true, all_toList_iff, h1, Bool.not_eq_true', Option.isNone_iff_eq_none, and_assoc]
  rfl

/-- The end of a character's stop bit at space, for an instant the line can have been there since. -/
theorem Link.endAtSpace_eq {l : Link} {b : Byte} {start space now : Nat} (ha : l.arriving = some start)
    (h : spaceInstant b start space now = true) :
    l.endAtSpace b space now = { l with spaceSince := some space, arriving := none, rx := l.rx.unread now } := by
  simp only [Link.endAtSpace, ha, h, if_true]

/-- No character ends where none is under way. -/
theorem Link.endAtSpace_idle {l : Link} {b : Byte} {space now : Nat} (ha : l.arriving = none) :
    l.endAtSpace b space now = l := by
  simp only [Link.endAtSpace, ha]

theorem PortState.receive_idle {ps : PortState} {b : Byte} {now : Nat} (ha : ps.link.arriving = none) :
    ps.receive b now = ps := by
  simp only [PortState.receive, ha]

/-! ### A stale ACK (R166, R169, R175) -/

/-- At the instant of the stall a stale ACK is counted and nothing else. -/
theorem Engine.staleAck_met {e : Engine} {now : Nat} (h : e.stalledAt = some now) :
    e.staleAck now = { e with staleAcks := e.staleAcks + 1 } := by
  simp only [Engine.staleAck, h, if_true]

theorem Engine.staleAck_stalled {e : Engine} {now : Nat} (hs : e.state = .stalled) (h : e.stalledAt ≠ some now) :
    e.staleAck now =
      { e with
        state := .awaitAck, stalledAt := none, attempts := 0, frame := .queued,
        retransmissions := e.retransmissions + 1, staleAcks := e.staleAcks + 1 } := by
  simp only [Engine.staleAck, h, if_false, Engine.resume, hs, if_true, Engine.hand]

theorem Engine.staleAck_other {e : Engine} {now : Nat} (hs : e.state ≠ .stalled) :
    e.staleAck now = { e with staleAcks := e.staleAcks + 1 } := by
  simp only [Engine.staleAck, Engine.resume, hs, if_false, ite_self]

end Sys2Proof.Machine
end

