-- ==== Sys2Proof/Laws/CivilTime.lean ====
section
/-! SUPPORT. What an advance, a change of civil time and its invalidation come to, case by case.
-/

namespace Sys2Proof.Machine

/-! ### Records of a change -/

theorem State.stepCancelled_request (s : State) (o : Option PendingStep) :
    s.stepCancelled o .request = stepGone o s.runTime s.civil := by
  cases o <;> rfl

theorem State.slewCancelled_request (s : State) (o : Option Slew) :
    s.slewCancelled o .request = slewGone o s.runTime s.civil := by
  cases o <;> rfl

/-- A move of civil time, its records written out (R27, R29, R30, R39). -/
theorem State.moveCivil_eq (s : State) (old new : Civil) (cancelled : Option PendingStep) (reason : ChangeReason)
    (p : Port) (offset : Int) :
    s.moveCivil old new cancelled reason p offset =
      ((({ s with civil := some new, slew := none, step := none } : State).offerEach
          (fun _ => slewGone s.slew s.runTime (some new) ++ stepGone cancelled s.runTime (some new))).stepPatterns
            old new).offerEach
        (fun _ => [changeRecord reason (some p) (some offset) s.runTime (some new)]) := by
  simp only [State.moveCivil, State.slewCancelled_request, State.stepCancelled_request, State.broadcast,
    State.timeChange, changeRecord]
  simp only [State.setCivilTime, State.civil_of_shell (State.shell_stepPatterns _ _ _),
    State.runTime_of_shell (State.shell_stepPatterns _ _ _), State.offerEach_civil, State.offerEach_runTime]

/-! ### Advances -/

theorem State.tick_of_lt {s : State} (h : s.runTime + 1 < 2 ^ 64) :
    s.tick = { s with runTime := s.runTime + 1, refclkCycles := 0 } :=
  if_pos h

theorem State.tick_of_ge {s : State} (h : 2 ^ 64 ≤ s.runTime + 1) :
    s.tick =
      { s with runTime := (Config.runTimePastEnd s.freeCount).toNat, refclkCycles := 0, freeCount := s.freeCount + 1 } :=
  if_neg (Nat.not_lt.2 h)

theorem State.advanceTime_unset {s : State} (hc : s.civil = none) : s.advanceTime = s.tick := by
  simp only [State.advanceTime, hc]

theorem State.advanceTime_valid {s : State} {c : Civil} (hc : s.civil = some c)
    (hy : (c.advance (advanceAmount s.slew)).year ≤ 2199) :
    s.advanceTime =
      (let new := c.advance (advanceAmount s.slew)
       let u := s.tick.setCivilTime (some new) (s.slew.bind Slew.counted)
         (s.step.map (fun x => x.told c new (advanceAmount s.slew)))
       if s.slew.isSome && (s.slew.bind Slew.counted).isNone then
         u.broadcast (u.timeChange .slewDone .request none none)
       else u) := by
  have hy' : ¬ 2199 < (c.advance (advanceAmount s.slew)).year := by omega
  simp only [State.advanceTime, hc, hy', if_false]

theorem State.advanceTime_end {s : State} {c : Civil} (hc : s.civil = some c)
    (hy : 2199 < (c.advance (advanceAmount s.slew)).year) :
    s.advanceTime = s.tick.invalidate .calendarEnd none := by
  simp only [State.advanceTime, hc, hy, if_true]

/-- An advance is the move of the two scales of time, with the note of the heads it reached. -/
theorem State.takeAdvance_eq (s : State) :
    s.takeAdvance = s.advanceTime.setReached (reachedHeads s s.advanceTime) := rfl

/-- An advance that comes before the due of the MONO list's head, with civil time UNSET, reaches no head. -/
theorem reachedHeads_unset {s t : State} (hc : t.civil = none) (hm : ∀ x, t.mono.head? = some x → t.runTime < x.due) :
    reachedHeads s t = { mono := false, civil := false } := by
  have h1 : (t.mono.head?.any fun x => decide (s.runTime < x.due) && decide (x.due ≤ t.runTime)) = false := by
    cases h : t.mono.head? with
    | none => rfl
    | some x =>
      have := hm x h
      simp [Option.any, Nat.not_le.2 this]
  simp only [reachedHeads, h1, hc, Option.any_none, Bool.and_false]
  cases t.civils.head? <;> simp

/-! ### Invalidation (R36, R101) -/

theorem State.slot_park (s : State) (id j : EntryId) (e : Entry) (st : EntryState) :
    (s.park id e st).slot j =
      if j = id then { gen := (s.slot id).gen, entry := some { e with state := st, timing := e.timing.disarmed } }
      else s.slot j := by
  simp only [State.park, State.setEntry]
  by_cases h : j = id
  · subst h; simp
  · simp [h]

theorem State.foldl_field {α β : Type} (f : State → α → State) (g : State → β) (h : ∀ s a, g (f s a) = g s)
    (xs : List α) (s : State) : g (xs.foldl f s) = g s := by
  induction xs generalizing s with
  | nil => rfl
  | cons x xs ih => rw [List.foldl_cons, ih, h]

theorem State.slot_sleep (s : State) (id j : EntryId) :
    (s.sleep id).slot j =
      if j = id then { s.slot id with entry := (s.slot id).entry.map Entry.madeDormant } else s.slot j := by
  unfold State.sleep
  split
  · next h =>
    by_cases hj : j = id
    · subst hj
      simp only [h, Option.map_none, if_true]
      rw [← h]
    · simp [hj]
  · next e h =>
    split
    · next h1 h2 =>
      rw [State.slot_park]
      by_cases hj : j = id
      · subst hj; simp [h, Entry.madeDormant, h1, h2, Timing.disarmed]
      · simp [hj]
    · next hh =>
      by_cases hj : j = id
      · subst hj
        have he : e.madeDormant = e := by
          unfold Entry.madeDormant
          split
          · next h1 h2 => exact absurd h2 (hh _ _ _ _ h1)
          · rfl
        simp only [h, Option.map_some, he, if_true]
        rw [← h]
      · simp [hj]

theorem State.slot_foldl_sleep (ids : List EntryId) (hn : ids.Nodup) (s : State) (j : EntryId) :
    (ids.foldl State.sleep s).slot j =
      if j ∈ ids then { s.slot j with entry := (s.slot j).entry.map Entry.madeDormant } else s.slot j := by
  induction ids generalizing s with
  | nil => simp
  | cons i is ih =>
    rw [List.foldl_cons, ih (List.nodup_cons.1 hn).2, State.slot_sleep]
    have hi := (List.nodup_cons.1 hn).1
    by_cases h : j = i
    · subst h; simp [hi]
    · simp [h]

theorem State.slot_sleepPatterns (s : State) (j : EntryId) :
    s.sleepPatterns.slot j = { s.slot j with entry := (s.slot j).entry.map Entry.madeDormant } := by
  simp only [State.sleepPatterns, State.setLists_slot]
  rw [State.slot_foldl_sleep _ (by exact List.nodup_finRange 64), if_pos (show j ∈ allIds from List.mem_finRange j)]

theorem State.mono_foldl_sleep (ids : List EntryId) (hn : ids.Nodup) (s : State)
    (h : ∀ i, i ∈ ids → ∀ e : Entry, (s.slot i).entry = some e → e.timing.due = none → s.monoAt i = []) :
    (ids.foldl State.sleep s).mono = s.mono := by
  induction ids generalizing s with
  | nil => rfl
  | cons i is ih =>
    have hi : (s.sleep i).mono = s.mono := by
      unfold State.sleep
      split
      · rfl
      · next e he =>
        split
        · next h1 h2 =>
          have hm := h i (by simp) e he (by simp [h2, Timing.due])
          simp only [State.monoAt, List.map_eq_nil_iff, List.filter_eq_nil_iff] at hm
          simp only [State.park, State.setEntry_mono, State.unlist, State.setLists]
          rw [List.filter_eq_self]
          intro a ha
          simpa using hm a ha
        · rfl
    rw [List.foldl_cons, ih (List.nodup_cons.1 hn).2, hi]
    intro k hk e he hd
    have hki : k ≠ i := fun e => (List.nodup_cons.1 hn).1 (e ▸ hk)
    rw [State.slot_sleep, if_neg hki] at he
    rw [State.monoAt, hi]
    exact h k (by simp [hk]) e he hd

/-- An invalidation leaves the MONO due list when no entry without a due stands in it. -/
theorem State.mono_sleepPatterns (s : State)
    (h : ∀ (i : EntryId) (e : Entry), (s.slot i).entry = some e → e.timing.due = none → s.monoAt i = []) :
    s.sleepPatterns.mono = s.mono := by
  simp only [State.sleepPatterns, State.setLists_mono]
  exact State.mono_foldl_sleep _ (List.nodup_finRange 64) s (fun i _ => h i)

theorem State.sleep_rest (s : State) (id : EntryId) :
    (s.sleep id).held = s.held ∧ (s.sleep id).poolUse = s.poolUse ∧ (s.sleep id).lines = s.lines ∧
    (s.sleep id).ports = s.ports := by
  unfold State.sleep
  split
  · simp
  · split <;> simp

theorem State.sleepPatterns_rest (s : State) :
    s.sleepPatterns.civils = [] ∧ s.sleepPatterns.held = s.held ∧ s.sleepPatterns.poolUse = s.poolUse ∧
    s.sleepPatterns.lines = s.lines ∧ s.sleepPatterns.ports = s.ports := by
  refine ⟨rfl, ?_, ?_, ?_, ?_⟩ <;> unfold State.sleepPatterns
  · simp only [State.setLists_held]
    exact State.foldl_field State.sleep State.held (fun s i => (s.sleep_rest i).1) _ _
  · simp only [State.setLists_poolUse]
    exact State.foldl_field State.sleep State.poolUse (fun s i => (s.sleep_rest i).2.1) _ _
  · simp only [State.setLists_lines]
    exact State.foldl_field State.sleep State.lines (fun s i => (s.sleep_rest i).2.2.1) _ _
  · simp only [State.setLists_ports]
    exact State.foldl_field State.sleep State.ports (fun s i => (s.sleep_rest i).2.2.2) _ _

theorem State.sleepPatterns_clock (s : State) :
    s.sleepPatterns.runTime = s.runTime ∧ s.sleepPatterns.civil = s.civil :=
  ⟨State.runTime_of_shell s.shell_sleepPatterns, State.civil_of_shell s.shell_sleepPatterns⟩

/-- An invalidation by a request, its records written out (R36, R39). -/
theorem State.invalidate_request (s : State) (p : Option Port) :
    s.invalidate .request p = (s.setCivilTime none none none).sleepPatterns.offerEach (fun _ =>
      slewGone s.slew s.runTime none ++ stepGone s.step s.runTime none ++
        [changeRecord .invalidated p none s.runTime none]) := by
  obtain ⟨h1, h2⟩ := (s.setCivilTime none none none).sleepPatterns_clock
  have h1 : (s.setCivilTime none none none).sleepPatterns.runTime = s.runTime := h1
  have h2 : (s.setCivilTime none none none).sleepPatterns.civil = none := h2
  simp only [State.invalidate, State.slewCancelled_request, State.stepCancelled_request, State.timeChange,
    changeRecord, h1, h2]

/-- The invalidation of the calendar end, its records written out (R37, R39). -/
theorem State.invalidate_calendarEnd (s : State) :
    s.invalidate .calendarEnd none = (s.setCivilTime none none none).sleepPatterns.offerEach (fun _ =>
      (match s.slew with
       | some _ => [endRecord .slewCancelled s.runTime]
       | none => []) ++
      (match s.step with
       | some _ => [endRecord .stepCancelled s.runTime]
       | none => []) ++ [endRecord .invalidated s.runTime]) := by
  obtain ⟨h1, h2⟩ := (s.setCivilTime none none none).sleepPatterns_clock
  have h1 : (s.setCivilTime none none none).sleepPatterns.runTime = s.runTime := h1
  have h2 : (s.setCivilTime none none none).sleepPatterns.civil = none := h2
  have h3 : ∀ o : Option Slew, (s.setCivilTime none none none).sleepPatterns.slewCancelled o .calendarEnd =
      (match o with
       | some _ => [endRecord .slewCancelled s.runTime]
       | none => []) := by
    intro o; cases o <;> simp only [State.slewCancelled, State.timeChange, endRecord, h1, h2]
  have h4 : ∀ o : Option PendingStep, (s.setCivilTime none none none).sleepPatterns.stepCancelled o .calendarEnd =
      (match o with
       | some _ => [endRecord .stepCancelled s.runTime]
       | none => []) := by
    intro o; cases o <;> simp only [State.stepCancelled, State.timeChange, endRecord, h1, h2]
  simp only [State.invalidate, h3, h4]
  simp only [State.timeChange, endRecord, h1, h2]

/-- What an invalidation does, whatever records it offers. -/
theorem State.civilGone (s : State) (records : List Record) :
    CivilGone s ((s.setCivilTime none none none).sleepPatterns.offerEach (fun _ => records)) records := by
  have sh := (s.setCivilTime none none none).shell_sleepPatterns
  obtain ⟨g1, g2, g3, g4, g5⟩ := (s.setCivilTime none none none).sleepPatterns_rest
  refine ⟨?_, ?_, ?_, ?_, ?_, ?_, ?_, ?_, ?_, ?_, ?_, ?_, ?_, ?_⟩
  · rw [State.offerEach_civil, State.civil_of_shell sh]; rfl
  · rw [State.offerEach_slew, State.slew_of_shell sh]; rfl
  · rw [State.offerEach_step, State.step_of_shell sh]; rfl
  · rw [State.offerEach_civils, g1]
  · intro id
    rw [State.offerEach_slot, State.slot_sleepPatterns]; rfl
  · intro h
    rw [State.offerEach_mono, State.mono_sleepPatterns]
    · rfl
    · intro i e he hd
      have hi := h.1 i
      unfold SlotOk at hi
      have he' : (s.slot i).entry = some e := he
      simp only [he'] at hi
      change s.monoAt i = []
      rw [hi.2.1, Entry.monoDues, hd]
      simp
  · rw [State.offerEach_reached, State.reached_of_shell sh]; rfl
  · rw [State.offerEach_held, g2]; rfl
  · rw [State.offerEach_poolUse, g3]; rfl
  · simp only [SameClock, State.offerEach_rstN, State.offerEach_rate1, State.offerEach_rate0, State.offerEach_runTime,
      State.offerEach_refclkCycles]
    exact ⟨(State.rstN_of_shell sh).trans rfl, (State.rate1_of_shell sh).trans rfl,
      (State.rate0_of_shell sh).trans rfl, (State.runTime_of_shell sh).trans rfl,
      (State.refclkCycles_of_shell sh).trans rfl⟩
  · simp only [SameAuthority, State.offerEach_lease, State.offerEach_waiters]
    exact ⟨(State.lease_of_shell sh).trans rfl, (State.waiters_of_shell sh).trans rfl⟩
  · simp only [SamePins, State.offerEach_lines, State.offerEach_inputs]
    exact ⟨g4, (State.inputs_of_shell sh).trans rfl⟩
  · simp only [SameModel, State.offerEach_freeCount, State.offerEach_pending]
    exact ⟨(State.freeCount_of_shell sh).trans rfl, (State.pending_of_shell sh).trans rfl⟩
  · intro q
    rw [State.port_offerEach]
    simp only [State.port, g5]
    rfl

end Sys2Proof.Machine
end

