-- ==== Sys2Proof/Laws/PerInstr.lean ====
section
/-! SUPPORT. The per-instruction family WellFormedness: which commands are well formed, and that every request command
carries one of the 24 request codes of Table 10-9.
-/

namespace Sys2Proof.Laws.WellFormedness

open Sys2Proof.Machine

/-- A command is well formed unless it is a LENGTH_FAULT of a LEN byte that is in range (R180), and a request command's
code is one of the 24 (Table 10-9). -/
def Statement (i : Instr) : Prop :=
  (i.wellFormed = true ↔ ∀ (p : Port) (b : Byte), i = .lengthFault p b → badLength b = true) ∧
  ∀ (p : Port) (code : Byte), requestOf i = some (p, code) → code ∈ requestCodes

/-- A command other than LENGTH_FAULT that is no request. -/
theorem of_event {i : Instr} (hw : i.wellFormed = true) (hl : ∀ (p : Port) (b : Byte), i ≠ .lengthFault p b)
    (hr : requestOf i = none) : Statement i :=
  ⟨⟨fun _ p b h => absurd h (hl p b), fun _ => hw⟩, fun p code h => by rw [hr] at h; cases h⟩

/-- A request command. -/
theorem of_request {i : Instr} {q : Port} {c : Byte} (hw : i.wellFormed = true)
    (hl : ∀ (p : Port) (b : Byte), i ≠ .lengthFault p b) (hr : requestOf i = some (q, c)) (hc : c ∈ requestCodes) :
    Statement i :=
  ⟨⟨fun _ p b h => absurd h (hl p b), fun _ => hw⟩, fun p code h => by
    rw [hr] at h
    cases h
    exact hc⟩

theorem runTimeAdvance : Statement .runTimeAdvance :=
  of_event rfl (fun _ _ h => nomatch h) rfl

theorem adjustedAdvance : Statement .adjustedAdvance :=
  of_event rfl (fun _ _ h => nomatch h) rfl

theorem secondBoundary : Statement .secondBoundary :=
  of_event rfl (fun _ _ h => nomatch h) rfl

theorem calendarEnd : Statement .calendarEnd :=
  of_event rfl (fun _ _ h => nomatch h) rfl

theorem readTime (p : Port) : Statement (.readTime p) :=
  of_request rfl (fun _ _ h => nomatch h) rfl (by decide)

theorem claimAuthority (p : Port) : Statement (.claimAuthority p) :=
  of_request rfl (fun _ _ h => nomatch h) rfl (by decide)

theorem releaseAuthority (p : Port) : Statement (.releaseAuthority p) :=
  of_request rfl (fun _ _ h => nomatch h) rfl (by decide)

theorem leaseExpiry : Statement .leaseExpiry :=
  of_event rfl (fun _ _ h => nomatch h) rfl

theorem setCivil (p : Port) : Statement (.setCivil p) :=
  of_request rfl (fun _ _ h => nomatch h) rfl (by decide)

theorem stepCivil (p : Port) : Statement (.stepCivil p) :=
  of_request rfl (fun _ _ h => nomatch h) rfl (by decide)

theorem cancelStep (p : Port) : Statement (.cancelStep p) :=
  of_request rfl (fun _ _ h => nomatch h) rfl (by decide)

theorem slewCivil (p : Port) : Statement (.slewCivil p) :=
  of_request rfl (fun _ _ h => nomatch h) rfl (by decide)

theorem invalidateCivil (p : Port) : Statement (.invalidateCivil p) :=
  of_request rfl (fun _ _ h => nomatch h) rfl (by decide)

theorem createEntry (p : Port) : Statement (.createEntry p) :=
  of_request rfl (fun _ _ h => nomatch h) rfl (by decide)

theorem queryEntry (p : Port) : Statement (.queryEntry p) :=
  of_request rfl (fun _ _ h => nomatch h) rfl (by decide)

theorem listEntries (p : Port) : Statement (.listEntries p) :=
  of_request rfl (fun _ _ h => nomatch h) rfl (by decide)

theorem cancelEntry (p : Port) : Statement (.cancelEntry p) :=
  of_request rfl (fun _ _ h => nomatch h) rfl (by decide)

theorem suspendEntry (p : Port) : Statement (.suspendEntry p) :=
  of_request rfl (fun _ _ h => nomatch h) rfl (by decide)

theorem resumeEntry (p : Port) : Statement (.resumeEntry p) :=
  of_request rfl (fun _ _ h => nomatch h) rfl (by decide)

theorem monoFiring : Statement .monoFiring :=
  of_event rfl (fun _ _ h => nomatch h) rfl

theorem civilFiring : Statement .civilFiring :=
  of_event rfl (fun _ _ h => nomatch h) rfl

theorem claimLine (p : Port) : Statement (.claimLine p) :=
  of_request rfl (fun _ _ h => nomatch h) rfl (by decide)

theorem releaseLine (p : Port) : Statement (.releaseLine p) :=
  of_request rfl (fun _ _ h => nomatch h) rfl (by decide)

theorem driveLine (p : Port) : Statement (.driveLine p) :=
  of_request rfl (fun _ _ h => nomatch h) rfl (by decide)

theorem pulseEnd (l : Line) : Statement (.pulseEnd l) :=
  of_event rfl (fun _ _ h => nomatch h) rfl

theorem claimInput (p : Port) : Statement (.claimInput p) :=
  of_request rfl (fun _ _ h => nomatch h) rfl (by decide)

theorem releaseInput (p : Port) : Statement (.releaseInput p) :=
  of_request rfl (fun _ _ h => nomatch h) rfl (by decide)

theorem captureEdge (i : Input) (level : Level) : Statement (.captureEdge i level) :=
  of_event rfl (fun _ _ h => nomatch h) rfl

theorem holdoffExpiry (i : Input) : Statement (.holdoffExpiry i) :=
  of_event rfl (fun _ _ h => nomatch h) rfl

theorem transmitStart (p : Port) : Statement (.transmitStart p) :=
  of_event rfl (fun _ _ h => nomatch h) rfl

theorem noteTransmissionEnd (p : Port) : Statement (.noteTransmissionEnd p) :=
  of_event rfl (fun _ _ h => nomatch h) rfl

theorem responseTransmissionEnd (p : Port) : Statement (.responseTransmissionEnd p) :=
  of_event rfl (fun _ _ h => nomatch h) rfl

theorem ackFrame (p : Port) : Statement (.ackFrame p) :=
  of_event rfl (fun _ _ h => nomatch h) rfl

theorem ackTimeout (p : Port) : Statement (.ackTimeout p) :=
  of_event rfl (fun _ _ h => nomatch h) rfl

theorem backoffExpiry (p : Port) : Statement (.backoffExpiry p) :=
  of_event rfl (fun _ _ h => nomatch h) rfl

theorem setPortConfig (p : Port) : Statement (.setPortConfig p) :=
  of_request rfl (fun _ _ h => nomatch h) rfl (by decide)

theorem frameComplete (p : Port) (b : Byte) : Statement (.frameComplete p b) :=
  of_event rfl (fun _ _ h => nomatch h) rfl

theorem lengthFault (p : Port) (b : Byte) : Statement (.lengthFault p b) :=
  ⟨⟨fun h _ _ e => by cases e; exact h, fun h => h p b rfl⟩, fun _ _ h => by cases h⟩

theorem gapExpiry (p : Port) : Statement (.gapExpiry p) :=
  of_event rfl (fun _ _ h => nomatch h) rfl

theorem breakSeen (p : Port) : Statement (.breakSeen p) :=
  of_event rfl (fun _ _ h => nomatch h) rfl

theorem unknownRequest (p : Port) : Statement (.unknownRequest p) :=
  of_event rfl (fun _ _ h => nomatch h) rfl

theorem getPortStatus (p : Port) : Statement (.getPortStatus p) :=
  of_request rfl (fun _ _ h => nomatch h) rfl (by decide)

theorem clearFaults (p : Port) : Statement (.clearFaults p) :=
  of_request rfl (fun _ _ h => nomatch h) rfl (by decide)

theorem getInfo (p : Port) : Statement (.getInfo p) :=
  of_request rfl (fun _ _ h => nomatch h) rfl (by decide)

theorem portReset (p : Port) : Statement (.portReset p) :=
  of_request rfl (fun _ _ h => nomatch h) rfl (by decide)

theorem deviceReset : Statement .deviceReset :=
  of_event rfl (fun _ _ h => nomatch h) rfl

theorem resetRelease (rate1 rate0 : Bool) (cap0 cap1 cap2 cap3 : Level) : Statement (.resetRelease rate1 rate0 cap0 cap1 cap2 cap3) :=
  of_event rfl (fun _ _ h => nomatch h) rfl

theorem characterReceived (p : Port) (b : Byte) (moment : CharMoment) : Statement (.characterReceived p b moment) :=
  of_event rfl (fun _ _ h => nomatch h) rfl

theorem receiveLineAtMark (p : Port) : Statement (.receiveLineAtMark p) :=
  of_event rfl (fun _ _ h => nomatch h) rfl

end Sys2Proof.Laws.WellFormedness
end

