-- ==== Sys2Proof/Laws/Step.lean ====
section
/-! SUPPORT. What each command does while RST_N is high, one lemma a command, and what an invariant needs so that every
step keeps it.
-/

namespace Sys2Proof.Machine

-- one after the other: elaborated side by side, lemmas that wait for the same equations of `exec` use up the threads
set_option Elab.async false

theorem execRunTimeAdvance_released {s : State} (h : s.rstN = true) :
    exec (.runTimeAdvance) s = .next
      (if s.settled then s.takeAdvance else s) := by
  unfold exec execRunTimeAdvance
  exact whenReleased_high h

theorem execAdjustedAdvance_released {s : State} (h : s.rstN = true) :
    exec (.adjustedAdvance) s = .next
      (if s.settled && s.adjustsNext then s.takeAdvance else s) := by
  unfold exec execAdjustedAdvance
  exact whenReleased_high h

theorem execSecondBoundary_released {s : State} (h : s.rstN = true) :
    exec (.secondBoundary) s = .next
      (match s.civil, s.step with
        | some held, some x =>
          match x.reached with
          | some b => s.applyPending x b held
          | none => s
        | _, _ => s) := by
  unfold exec execSecondBoundary
  exact whenReleased_high h

theorem execCalendarEnd_released {s : State} (h : s.rstN = true) :
    exec (.calendarEnd) s = .next
      (if s.settled && s.reachesCalendarEnd then s.takeAdvance else s) := by
  unfold exec execCalendarEnd
  exact whenReleased_high h

theorem execReadTime_released {s : State} (p : Port) (h : s.rstN = true) :
    exec (.readTime p) s = .next
      (s.serve p 0x01 (withLength 0 (fun _ t => (t, Reply.okWith t.snapshot)))) := by
  unfold exec execReadTime
  exact whenReleased_high h

theorem execClaimAuthority_released {s : State} (p : Port) (h : s.rstN = true) :
    exec (.claimAuthority p) s = .next
      (s.serve p 0x02 (withLength 4 (fun args t =>
        let ms := fieldAt args 0 4
        if 100 ≤ ms ∧ ms ≤ 600000 then t.claimAuthority p ms else refuse t .range))) := by
  unfold exec execClaimAuthority
  exact whenReleased_high h

theorem execReleaseAuthority_released {s : State} (p : Port) (h : s.rstN = true) :
    exec (.releaseAuthority p) s = .next
      (s.serve p 0x03 (withLength 0 (fun _ t =>
        if t.holds p then (t.endAuthority none, Reply.plain .ok) else refuse t .notHolder))) := by
  unfold exec execReleaseAuthority
  exact whenReleased_high h

theorem execLeaseExpiry_released {s : State} (h : s.rstN = true) :
    exec (.leaseExpiry) s = .next
      (match s.lease with
        | none => s
        | some l => if l.expiry ≤ s.runTime then s.endAuthority (some l.holder) else s) := by
  unfold exec execLeaseExpiry
  exact whenReleased_high h

theorem execSetCivil_released {s : State} (p : Port) (h : s.rstN = true) :
    exec (.setCivil p) s = .next
      (s.serve p 0x04 (civilChange p 12 (fun args t =>
        match decodeCivil args with
        | none => refuse t .range
        | some new => (t.setCivil p new, Reply.plain .ok)))) := by
  unfold exec execSetCivil
  exact whenReleased_high h

theorem execStepCivil_released {s : State} (p : Port) (h : s.rstN = true) :
    exec (.stepCivil p) s = .next
      (s.serve p 0x05 (civilChange p 9 (fun args t =>
        t.stepCivil p (signedAt args 0 8) (byteAt args 8)))) := by
  unfold exec execStepCivil
  exact whenReleased_high h

theorem execCancelStep_released {s : State} (p : Port) (h : s.rstN = true) :
    exec (.cancelStep p) s = .next
      (s.serve p 0x06 (civilChange p 0 (fun _ t =>
        match t.step with
        | none => refuse t .wrongState
        | some _ => (t.cancelStep, Reply.plain .ok)))) := by
  unfold exec execCancelStep
  exact whenReleased_high h

theorem execSlewCivil_released {s : State} (p : Port) (h : s.rstN = true) :
    exec (.slewCivil p) s = .next
      (s.serve p 0x07 (civilChange p 6 (fun args t =>
        t.slewCivil p (signedAt args 0 4) (fieldAt args 4 2)))) := by
  unfold exec execSlewCivil
  exact whenReleased_high h

theorem execInvalidateCivil_released {s : State} (p : Port) (h : s.rstN = true) :
    exec (.invalidateCivil p) s = .next
      (s.serve p 0x08 (civilChange p 0 (fun _ t =>
        match t.civil with
        | none => refuse t .civilUnset
        | some _ => (t.invalidate .request (some p), Reply.plain .ok)))) := by
  unfold exec execInvalidateCivil
  exact whenReleased_high h

theorem execCreateEntry_released {s : State} (p : Port) (h : s.rstN = true) :
    exec (.createEntry p) s = .next
      (s.serve p 0x10 (fun args t =>
        match decodeCreate args with
        | .error st => refuse t st
        | .ok a => t.create p a)) := by
  unfold exec execCreateEntry
  exact whenReleased_high h

theorem execQueryEntry_released {s : State} (p : Port) (h : s.rstN = true) :
    exec (.queryEntry p) s = .next
      (s.serve p 0x11 (withEntry p (fun id e t =>
        (t, Reply.okWith (e.bytes (t.handleOf id)))))) := by
  unfold exec execQueryEntry
  exact whenReleased_high h

theorem execListEntries_released {s : State} (p : Port) (h : s.rstN = true) :
    exec (.listEntries p) s = .next
      (s.serve p 0x12 (withLength 0 (fun _ t =>
        (t, Reply.okWith (toBytes 1 (t.entriesOf p).length ++ (t.entriesOf p).flatMap t.listed))))) := by
  unfold exec execListEntries
  exact whenReleased_high h

theorem execCancelEntry_released {s : State} (p : Port) (h : s.rstN = true) :
    exec (.cancelEntry p) s = .next
      (s.serve p 0x13 (withEntry p (fun id _ t => (t.freeEntry id, Reply.plain .ok)))) := by
  unfold exec execCancelEntry
  exact whenReleased_high h

theorem execSuspendEntry_released {s : State} (p : Port) (h : s.rstN = true) :
    exec (.suspendEntry p) s = .next
      (s.serve p 0x14 (withEntry p (fun id e t =>
        if e.state = .suspended then refuse t .wrongState else (t.park id e .suspended, Reply.plain .ok)))) := by
  unfold exec execSuspendEntry
  exact whenReleased_high h

theorem execResumeEntry_released {s : State} (p : Port) (h : s.rstN = true) :
    exec (.resumeEntry p) s = .next
      (s.serve p 0x15 (withEntry p (fun id e t =>
        if e.state = .suspended then t.resume id e else refuse t .wrongState))) := by
  unfold exec execResumeEntry
  exact whenReleased_high h

theorem execMonoFiring_released {s : State} (h : s.rstN = true) :
    exec (.monoFiring) s = .next
      (match s.mono with
        | [] => s
        | pos :: _ =>
          if pos.due ≤ s.runTime then (s.setReached { s.reached with mono := false }).fireMono pos else s) := by
  unfold exec execMonoFiring
  exact whenReleased_high h

theorem execCivilFiring_released {s : State} (h : s.rstN = true) :
    exec (.civilFiring) s = .next
      (match s.civils, s.civil with
        | pos :: _, some c =>
          if pos.next.count ≤ c.count then (s.setReached { s.reached with civil := false }).fireCivil pos else s
        | _, _ => s) := by
  unfold exec execCivilFiring
  exact whenReleased_high h

theorem execClaimLine_released {s : State} (p : Port) (h : s.rstN = true) :
    exec (.claimLine p) s = .next
      (s.serve p 0x20 (withLength 2 (fun args t =>
        match decodeLine (byteAt args 0), decodeLevel (byteAt args 1) with
        | some l, some idle => t.claimLine p l idle
        | _, _ => refuse t .range))) := by
  unfold exec execClaimLine
  exact whenReleased_high h

theorem execReleaseLine_released {s : State} (p : Port) (h : s.rstN = true) :
    exec (.releaseLine p) s = .next
      (s.serve p 0x21 (withLength 1 (fun args t =>
        match decodeLine (byteAt args 0) with
        | some l => if t.ownsLine p l then (t.setLine l LineState.reset, Reply.plain .ok) else refuse t .notOwner
        | none => refuse t .range))) := by
  unfold exec execReleaseLine
  exact whenReleased_high h

theorem execDriveLine_released {s : State} (p : Port) (h : s.rstN = true) :
    exec (.driveLine p) s = .next
      (s.serve p 0x22 (withLength 6 (fun args t =>
        match decodeLineAction args 0 with
        | some a => t.driveLine p a
        | none => refuse t .range))) := by
  unfold exec execDriveLine
  exact whenReleased_high h

theorem execPulseEnd_released {s : State} (l : Line) (h : s.rstN = true) :
    exec (.pulseEnd l) s = .next
      (match (s.line l).claim, (s.line l).pulse with
        | some c, some x =>
          if x.endAt ≤ s.runTime then s.setLine l { claim := some c, level := c.idle, pulse := none } else s
        | _, _ => s) := by
  unfold exec execPulseEnd
  exact whenReleased_high h

theorem execClaimInput_released {s : State} (p : Port) (h : s.rstN = true) :
    exec (.claimInput p) s = .next
      (s.serve p 0x28 (withLength 4 (fun args t =>
        match decodeInput (byteAt args 0), decodeEdgeMode (byteAt args 1) with
        | some i, some mode => t.claimInput p i mode (fieldAt args 2 2)
        | _, _ => refuse t .range))) := by
  unfold exec execClaimInput
  exact whenReleased_high h

theorem execReleaseInput_released {s : State} (p : Port) (h : s.rstN = true) :
    exec (.releaseInput p) s = .next
      (s.serve p 0x29 (withLength 1 (fun args t =>
        match decodeInput (byteAt args 0) with
        | some i => if t.ownsInput p i then t.releaseInput p i else refuse t .notOwner
        | none => refuse t .range))) := by
  unfold exec execReleaseInput
  exact whenReleased_high h

theorem execCaptureEdge_released {s : State} (i : Input) (level : Level) (h : s.rstN = true) :
    exec (.captureEdge i level) s = .next
      (match (s.input i).seen with
        | none => s.setInput i { s.input i with seen := some level }
        | some old =>
          if old = level then s
          else (s.setInput i { s.input i with seen := some level }).takeEdge i (polarityTo level)) := by
  unfold exec execCaptureEdge
  exact whenReleased_high h

theorem execHoldoffExpiry_released {s : State} (i : Input) (h : s.rstN = true) :
    exec (.holdoffExpiry i) s = .next
      (match (s.input i).claim with
        | none => s
        | some c =>
          match c.holdoffEnd with
          | none => s
          | some t => if t ≤ s.runTime then s.setClaim i (some { c with holdoffEnd := none }) else s) := by
  unfold exec execHoldoffExpiry
  exact whenReleased_high h

theorem execTransmitStart_released {s : State} (p : Port) (h : s.rstN = true) :
    exec (.transmitStart p) s = .next
      (s.setPort p (s.port p).startFrame) := by
  unfold exec execTransmitStart
  exact whenReleased_high h

theorem execNoteTransmissionEnd_released {s : State} (p : Port) (h : s.rstN = true) :
    exec (.noteTransmissionEnd p) s = .next
      (s.setPort p ((s.port p).noteEnded s.runTime)) := by
  unfold exec execNoteTransmissionEnd
  exact whenReleased_high h

theorem execResponseTransmissionEnd_released {s : State} (p : Port) (h : s.rstN = true) :
    exec (.responseTransmissionEnd p) s = .next
      (match (s.link p).tx with
        | some (.response _ resets) =>
          let t := s.setLink p { s.link p with tx := none }
          if resets then t.resetPort p false else t
        | some (.cut _ false) => s.setLink p { s.link p with tx := none }
        | some (.cut _ true) => s
        | some (.note _ _) => s
        | none => s) := by
  unfold exec execResponseTransmissionEnd
  exact whenReleased_high h

theorem execAckFrame_released {s : State} (p : Port) (h : s.rstN = true) :
    exec (.ackFrame p) s = .next
      (match (s.link p).acks with
        | [] => s
        | payload :: rest =>
          let t := s.setLink p { s.link p with acks := rest }
          t.setPort p (if (t.port p).ackMatches payload then (t.port p).acceptAck else (t.port p).refuseAck t.runTime)) := by
  unfold exec execAckFrame
  exact whenReleased_high h

theorem execAckTimeout_released {s : State} (p : Port) (h : s.rstN = true) :
    exec (.ackTimeout p) s = .next
      (match (s.port p).engine.ackEnd with
        | none => s
        | some t => if t ≤ s.runTime then s.ackExpired p else s) := by
  unfold exec execAckTimeout
  exact whenReleased_high h

theorem execBackoffExpiry_released {s : State} (p : Port) (h : s.rstN = true) :
    exec (.backoffExpiry p) s = .next
      (match (s.port p).engine.backoffEnd with
        | none => s
        | some t =>
          if t ≤ s.runTime then s.setPort p { s.port p with engine := (s.port p).engine.retransmit } else s) := by
  unfold exec execBackoffExpiry
  exact whenReleased_high h

theorem execSetPortConfig_released {s : State} (p : Port) (h : s.rstN = true) :
    exec (.setPortConfig p) s = .next
      (s.serve p 0x30 (withLength 5 (fun args t =>
        match decodeConfig args with
        | some c => (t.setPort p ((t.port p).configure c), Reply.plain .ok)
        | none => refuse t .range))) := by
  unfold exec execSetPortConfig
  exact whenReleased_high h

theorem execFrameComplete_released {s : State} (p : Port) (b : Byte) (h : s.rstN = true) :
    exec (.frameComplete p b) s = .next
      (if (s.link p).rx.atLast then s.setPort p ((s.port p).receive b s.runTime) else s) := by
  unfold exec execFrameComplete
  exact whenReleased_high h

theorem execLengthFault_released {s : State} (p : Port) (b : Byte) (h : s.rstN = true) :
    exec (.lengthFault p b) s = .next
      (if (s.link p).rx.atLength && lengthOutOfRange b then s.setPort p ((s.port p).receive b s.runTime) else s) := by
  unfold exec execLengthFault
  exact whenReleased_high h

theorem execGapExpiry_released {s : State} (p : Port) (h : s.rstN = true) :
    exec (.gapExpiry p) s = .next
      (if (s.link p).gapOver s.runTime then s.setLink p ((s.link p).fault .truncated) else s) := by
  unfold exec execGapExpiry
  exact whenReleased_high h

theorem execBreakSeen_released {s : State} (p : Port) (h : s.rstN = true) :
    exec (.breakSeen p) s = .next
      (if (s.link p).spaceLong s.runTime then s.resetPort p true else s) := by
  unfold exec execBreakSeen
  exact whenReleased_high h

theorem execUnknownRequest_released {s : State} (p : Port) (h : s.rstN = true) :
    exec (.unknownRequest p) s = .next
      (match (s.link p).takable with
        | none => s
        | some [] => (s.takeRequest p).respond p 0x00 0x00 (Reply.plain .malformed)
        | some [tag] => (s.takeRequest p).respond p tag 0x00 (Reply.plain .malformed)
        | some (tag :: code :: _) =>
          if code ∈ requestCodes then s else (s.takeRequest p).respond p tag code (Reply.plain .unknownRequest)) := by
  unfold exec execUnknownRequest
  exact whenReleased_high h

theorem execGetPortStatus_released {s : State} (p : Port) (h : s.rstN = true) :
    exec (.getPortStatus p) s = .next
      (s.serve p 0x31 (withLength 0 (fun _ t => (t, Reply.okWith (t.port p).statusBytes)))) := by
  unfold exec execGetPortStatus
  exact whenReleased_high h

theorem execClearFaults_released {s : State} (p : Port) (h : s.rstN = true) :
    exec (.clearFaults p) s = .next
      (s.serve p 0x32 (withLength 0 (fun _ t =>
        (t.setLink p { t.link p with faults := FaultRecord.clear }, Reply.plain .ok)))) := by
  unfold exec execClearFaults
  exact whenReleased_high h

theorem execGetInfo_released {s : State} (p : Port) (h : s.rstN = true) :
    exec (.getInfo p) s = .next
      (s.serve p 0x33 (withLength 0 (fun _ t => (t, Reply.okWith infoBytes)))) := by
  unfold exec execGetInfo
  exact whenReleased_high h

theorem execPortReset_released {s : State} (p : Port) (h : s.rstN = true) :
    exec (.portReset p) s = .next
      (s.serve p 0x34 (withLength 0 (fun _ t =>
        (t, { status := .ok, results := [(t.port p).queue.epoch + 1], resets := true })))) := by
  unfold exec execPortReset
  exact whenReleased_high h

theorem execCharacterReceived_released {s : State} (p : Port) (b : Byte) (moment : CharMoment) (h : s.rstN = true) :
    exec (.characterReceived p b moment) s = .next
      (match moment with
        | .starts => s.setLink p ((s.link p).startBit s.runTime)
        | .endsAtMark => s.setPort p ((s.port p).receive b s.runTime)
        | .endsAtSpace t => s.setLink p ((s.link p).endAtSpace b t s.runTime)) := by
  unfold exec execCharacterReceived
  exact whenReleased_high h

theorem execReceiveLineAtMark_released {s : State} (p : Port) (h : s.rstN = true) :
    exec (.receiveLineAtMark p) s = .next
      (s.setLink p (s.link p).atMark) := by
  unfold exec execReceiveLineAtMark
  exact whenReleased_high h

/-- No command faults or is refused. -/
theorem exec_next (c : Instr) (s : State) : ∃ t : State, exec c s = .next t := by
  cases c <;> exact ⟨_, rfl⟩

/-- What is to be shown of an invariant so that every step keeps it: it says nothing of the queue of commands, a REFCLK
cycle keeps it, and so does every command. -/
theorem step_keeps {Inv : State → Prop} (queue : ∀ (s : State) (q : List Instr), Inv s → Inv { s with pending := q })
    (cycle : ∀ s : State, Inv s → s.refclkCycles + 1 < Config.cyclesPerAdvance →
      Inv { s with refclkCycles := s.refclkCycles + 1 })
    (command : ∀ (c : Instr) (s t : State), Inv s → exec c s = .next t → Inv t) (s t : State) (hs : Inv s)
    (h : step s = .next t) : Inv t := by
  unfold step at h
  split at h
  · exact command _ _ t (queue s _ hs) h
  · simp only [Host.Outcome.next.injEq] at h
    subst h
    unfold State.refclk
    split
    · next hr =>
      split
      · next hc => exact cycle s hs hc
      · split
        · next hset =>
          refine command .runTimeAdvance s _ hs ?_
          rw [execRunTimeAdvance_released hr, if_pos hset]
        · exact hs
    · exact hs

end Sys2Proof.Machine
end

