-- ==== Sys2Proof/Tests/Slice0.lean ====
section
/-! SUPPORT. Checks of the model on small states: the ill-formed command refused, one or two steps of each command, most
of them rows of the manual's worked examples, and for every obligation a state and operands that meet its hypotheses.
-/

namespace Sys2Proof.Tests

open Sys2Proof.Machine

-- one after the other, to keep to the memory of one evaluation
set_option Elab.async false

/-! ### Small states -/

/-- The machine after its reset is released, every pin seen LOW. -/
def up : State :=
  { State.reset with rstN := true, inputs := Vector.replicate 4 { claim := none, seen := some .low } }

def atTime (now : Nat) (s : State) : State := { s with runTime := now }

def valid (c : Civil) (s : State) : State := { s with civil := some c }

/-- Port `p` holds the authority until `expiry`. -/
def leased (p : Port) (expiry : Nat) (s : State) : State := { s with lease := some { holder := p, expiry := expiry } }

/-- A request payload alone in the FIFO of port `p`. -/
def asked (p : Port) (payload : List Byte) (s : State) : State := s.setLink p { s.link p with fifo := [payload] }

def withQueue (p : Port) (records : List Queued) (next : Word16) (s : State) : State :=
  s.setPort p { s.port p with queue := { (s.port p).queue with records := records, nextSeq := next } }

def withEngine (p : Port) (e : Engine) (s : State) : State := s.setPort p { s.port p with engine := e }

def withTx (p : Port) (tx : TxFrame) (s : State) : State := s.setLink p { s.link p with tx := some tx }

def withRx (p : Port) (rx : Receiver) (s : State) : State := s.setLink p { s.link p with rx := rx }

/-- A character under way on port `p`'s receive line since its start bit at `start`. -/
def underWay (p : Port) (start : Nat) (s : State) : State :=
  s.setLink p { s.link p with spaceSince := some start, arriving := some start }

/-- An entry in slot `id`, of generation `gen`, counted for its owner. -/
def placed (id : EntryId) (gen : Byte) (e : Entry) (s : State) : State :=
  (s.setSlot id { gen := gen, entry := some e }).setHeld e.owner (s.heldBy e.owner + 1)

def listedMono (x : MonoPos) (s : State) : State := s.setLists (insertMono x s.mono) s.civils

def listedCivil (x : CivilPos) (s : State) : State := s.setLists s.mono (insertCivil x s.civils)

def owned (l : Line) (p : Port) (idle level : Level) (pulse : Option PulseEnd) (s : State) : State :=
  s.setLine l { claim := some { owner := p, idle := idle }, level := level, pulse := pulse }

def watched (i : Input) (c : InputClaim) (s : State) : State := s.setInput i { claim := some c, seen := some .low }

/-- The command answers a next state that passes the check. -/
def passes (c : Instr) (s : State) (ok : State → Bool) : Bool :=
  match exec c s with
  | .next t => ok t
  | .fault _ => false
  | .refused _ => false

def answers (t : State) (p : Port) : List (List Byte) := (t.link p).responses.map (fun r => r.payload)

def records (t : State) (p : Port) : List Record := (t.port p).queue.records.map (fun q => q.record)

def noon : Civil := { year := 2024, month := 6, day := 30, hour := 12, minute := 0, second := 41, micro := 999999 }

def endOfTime : Civil :=
  { year := 2199, month := 12, day := 31, hour := 23, minute := 59, second := 59, micro := 999999 }

def hourly : Pattern :=
  { month := none, day := none, weekday := none, hour := none, minute := some 30, second := some 0, micro := 0 }

def plain (p : Port) (st : EntryState) (timing : Timing) (remaining : Nat) : Entry :=
  { owner := p, state := st, timing := timing, remaining := remaining, action := none, notify := .always, tag := 7 }

def aFired : Record :=
  .fired { handle := { id := 7, gen := 4 }, tag := 7, intended := .run 5, fireTime := 5, civilStamp := none,
           outcome := .ok, skipped := 0, final := false, overtaken := none }

def claimOf (p : Port) (holdoff : Nat) (holdoffEnd : Option Nat) (suppressed : Nat) : InputClaim :=
  { owner := p, mode := .rising, holdoff := holdoff, holdoffEnd := holdoffEnd, suppressed := suppressed }

/-! ### Well-formedness -/

/-- LENGTH_FAULT with a LEN byte in range is no command. -/
theorem test_wellFormed_refuses :
    Instr.wellFormed (.lengthFault 0 1) = false ∧ Instr.wellFormed (.lengthFault 0 200) = false := by decide

theorem test_wellFormed_accepts :
    Instr.wellFormed (.lengthFault 0 0) = true ∧ Instr.wellFormed (.lengthFault 3 201) = true ∧
    Instr.wellFormed (.readTime 0) = true := by decide

/-! ### The clock, civil time and the authority -/

/-- Table 1-4. -/
theorem test_calendar_table_1_4 :
    [((2000, 1, 1), 0, 5), ((2000, 2, 29), 59, 1), ((2100, 1, 1), 36525, 4), ((2100, 3, 1), 36584, 0),
     ((2199, 12, 31), 73048, 1)].all (fun x =>
      let c : Civil :=
        { year := x.1.1, month := x.1.2.1, day := x.1.2.2, hour := 0, minute := 0, second := 0, micro := 0 }
      c.dayNumber == x.2.1 && c.weekday == x.2.2) = true := by decide +kernel

/-- Table 1-5, second row. -/
theorem test_runTimeAdvance_carries :
    passes .runTimeAdvance (valid { endOfTime with year := 2100, month := 2, day := 28 } up) (fun t =>
      t.runTime == 1 &&
      t.civil == some { year := 2100, month := 3, day := 1, hour := 0, minute := 0, second := 0, micro := 0 }) = true := by
  decide +kernel

/-- A lease that expires now holds the advance back. -/
theorem test_runTimeAdvance_waits :
    passes .runTimeAdvance (atTime 5 (leased 0 5 up)) (fun t => t.runTime == 5) = true := by decide +kernel

/-- The first firing of a due that an advance reached is taken before the next advance, as is the gap expiry of an idle
line inside a frame; a firing by insertion may lag (R69, R181). -/
theorem test_runTimeAdvance_waits_for_firings :
    (let s := atTime 4 (listedMono { id := 7, due := 5, late := false } (placed 7 1 (plain 1 .armed (.once 5) 1) up))
     passes .runTimeAdvance s (fun t => t.runTime == 5 && t.reached.mono && !t.settled) &&
      passes .runTimeAdvance (atTime 5 s) (fun t => t.runTime == 6 && !t.reached.mono) &&
      passes .monoFiring (atTime 5 { s with reached := { mono := true, civil := true } }) (fun t =>
        t.reached == { mono := false, civil := true } && t.mono == [])) = true ∧
    (let s := withRx 1 (.length 3) up
     passes .runTimeAdvance (atTime 1003 s) (fun t => t.runTime == 1004) &&
      passes .runTimeAdvance (atTime 1004 s) (fun t => t.runTime == 1004) &&
      passes .runTimeAdvance (atTime 1004 (underWay 1 900 s)) (fun t => t.runTime == 1005)) = true := by decide +kernel

/-- Table 1-5, third row, with the slew of Table 2-4 one advance before its tenth millisecond. -/
theorem test_adjustedAdvance_positive :
    passes .adjustedAdvance
      { valid noon up with
        slew := some { remaining := 250, rate := 100, interval := 10000, count := 9999, requester := 0 } }
      (fun t => t.civil == some { noon with second := 42, micro := 1 } &&
        t.slew == some { remaining := 249, rate := 100, interval := 10000, count := 0, requester := 0 }) = true := by
  decide +kernel

/-- Table 1-5, fourth row; the last adjusted advance ends the slew. -/
theorem test_adjustedAdvance_done :
    passes .adjustedAdvance
      { valid noon up with
        slew := some { remaining := -1, rate := 100, interval := 10000, count := 9999, requester := 0 } }
      (fun t => t.civil == some noon && t.slew == none &&
        records t 2 == [changeRecord .slewDone none none 1 (some noon)]) = true := by decide +kernel

/-- Table 2-6, run time 40,750,000. -/
theorem test_secondBoundary_applies :
    let boundary : Civil := { year := 2031, month := 5, day := 14, hour := 8, minute := 15, second := 31, micro := 0 }
    passes .secondBoundary
      { atTime 40750000 (leased 1 45000000 (valid boundary up)) with
        step := some { offset := 2000000, requester := 1, reached := some boundary } }
      (fun t => t.civil == some { boundary with second := 33 } && t.step == none &&
        records t 1 == [changeRecord .stepped (some 1) (some 2000000) 40750000 (some { boundary with second := 33 })]) =
      true := by decide +kernel

/-- Table 1-5, last row. -/
theorem test_calendarEnd :
    passes .calendarEnd (valid endOfTime up) (fun t =>
      t.civil == none && t.runTime == 1 && records t 3 == [endRecord .invalidated 1]) = true := by decide +kernel

/-- The snapshot of a T4 just released: run time, no flags, no slew, holder NONE. -/
theorem test_readTime :
    passes (.readTime 0) (asked 0 [9, 0x01] (atTime 258 up)) (fun t =>
      answers t 0 == [[9, 0x01, 0x00, 2, 1, 0, 0, 0, 0, 0, 0, 0, 0, 0, 0, 0, 0, 0, 0xFF, 0, 0, 0, 0]]) = true := by
  decide +kernel

/-- Table 2-6, run time 40,000,000. -/
theorem test_claimAuthority_granted :
    passes (.claimAuthority 1) (asked 1 [1, 0x02, 0x88, 0x13, 0, 0] (atTime 40000000 up)) (fun t =>
      t.lease == some { holder := 1, expiry := 45000000 } && answers t 1 == [[1, 0x02, 0x00]]) = true := by decide +kernel

/-- Table 2-6, run time 40,100,000. -/
theorem test_claimAuthority_held :
    passes (.claimAuthority 2) (asked 2 [1, 0x02, 0xE8, 3, 0, 0] (leased 1 45000000 up)) (fun t =>
      t.waiters[2] && answers t 2 == [[1, 0x02, 0x09, 1]]) = true := by decide +kernel

/-- Table 2-6, run time 41,000,000. -/
theorem test_releaseAuthority :
    passes (.releaseAuthority 1)
      (asked 1 [1, 0x03]
        { atTime 41000000 (leased 1 45000000 up) with waiters := (Vector.replicate 4 false).set 2 true })
      (fun t => t.lease == none && records t 2 == [authorityRecord .free 41000000] && records t 1 == []) = true := by
  decide +kernel

/-- 2.8, last paragraph: the lease expires at 45,000,000. -/
theorem test_leaseExpiry :
    passes .leaseExpiry
      { atTime 45000000 (leased 1 45000000 up) with waiters := (Vector.replicate 4 false).set 2 true }
      (fun t => records t 1 == [authorityRecord .expired 45000000] &&
        records t 2 == [authorityRecord .free 45000000] && !t.waiters[2]) = true := by decide +kernel

/-- 2100-02-29 does not exist. -/
theorem test_setCivil_range :
    passes (.setCivil 0) (asked 0 [1, 0x04, 0x34, 0x08, 2, 29, 0, 0, 0, 0, 0, 0, 0, 0] (leased 0 9 up)) (fun t =>
      t.civil == none && answers t 0 == [[1, 0x04, 0x04]]) = true := by decide +kernel

/-- The first value while UNSET arms the DORMANT entry. -/
theorem test_setCivil_arms :
    passes (.setCivil 0)
      (asked 0 [1, 0x04, 0xE8, 0x07, 6, 30, 12, 0, 41, 0x3F, 0x42, 0x0F, 0, 0]
        (leased 0 9 (placed 3 1 (plain 1 .dormant (.pattern hourly none .skip 0) 0) up)))
      (fun t => t.civil == some noon && t.civils == [{ id := 3, next := { noon with minute := 30, second := 0, micro := 0 } }] &&
        records t 1 == [changeRecord .set (some 0) (some 0) 0 (some noon)]) = true := by decide +kernel

/-- Table 2-6, run time 40,300,000. -/
theorem test_stepCivil_atSecond :
    passes (.stepCivil 1) (asked 1 ([1, 0x05] ++ signedBytes 8 2000000 ++ [1]) (leased 1 9 (valid noon up))) (fun t =>
      t.step == some { offset := 2000000, requester := 1, reached := none } && answers t 1 == [[1, 0x05, 0x01]]) =
      true := by decide +kernel

/-- Tables 5-5 and 5-6: entry 11 over a step of three days. -/
theorem test_stepCivil_skip :
    let old : Civil := { year := 2031, month := 5, day := 14, hour := 5, minute := 59, second := 58, micro := 0 }
    passes (.stepCivil 0)
      (asked 0 ([1, 0x05] ++ signedBytes 8 259200000000 ++ [0])
        (leased 0 9 (valid old
          (listedCivil { id := 11, next := { old with hour := 6, minute := 30, second := 0 } }
            (placed 11 1
              (plain 3 .armed (.pattern hourly (some { old with hour := 6, minute := 30, second := 0 }) .skip 0) 0) up)))))
      (fun t => (t.slot 11).entry == some (plain 3 .armed
        (.pattern hourly (some { old with day := 17, hour := 6, minute := 30, second := 0 }) .skip 72) 0)) = true := by
  decide +kernel

theorem test_cancelStep :
    passes (.cancelStep 1)
      (asked 1 [1, 0x06]
        { leased 1 9 (valid noon up) with step := some { offset := 5, requester := 1, reached := none } })
      (fun t => t.step == none && records t 3 == [changeRecord .stepCancelled (some 1) none 0 (some noon)]) = true := by
  decide +kernel

/-- 2.5, worked example: rate 100 gives K 10,000 and a discarded remainder of 0. -/
theorem test_slewCivil :
    passes (.slewCivil 0) (asked 0 [1, 0x07, 250, 0, 0, 0, 100, 0] (leased 0 9 (valid noon up))) (fun t =>
      t.slew == some { remaining := 250, rate := 100, interval := 10000, count := 0, requester := 0 } &&
      answers t 0 == [[1, 0x07, 0x00, 0, 0, 0, 0]]) = true := by decide +kernel

theorem test_invalidateCivil :
    passes (.invalidateCivil 0)
      (asked 0 [1, 0x08]
        (leased 0 9 (valid noon (listedCivil { id := 3, next := noon }
          (placed 3 1 (plain 1 .armed (.pattern hourly (some noon) .skip 4) 0) up)))))
      (fun t => t.civil == none && t.civils == [] &&
        (t.slot 3).entry == some (plain 1 .dormant (.pattern hourly none .skip 4) 0)) = true := by decide +kernel

/-! ### The schedule table and the due lists -/

/-- Table 4-5, first row. -/
theorem test_createEntry_once :
    passes (.createEntry 0)
      (asked 0 ([1, 0x10, 0, 0, 9, 0, 0, 7, 0, 0, 0] ++ toBytes 8 1500000) (atTime 1000000 up)) (fun t =>
      answers t 0 == [[1, 0x10, 0x00, 0, 1]] && t.mono == [{ id := 0, due := 1500000, late := false }] &&
      (t.slot 0).entry == some (plain 0 .armed (.once 1500000) 1) && t.heldBy 0 == 1) = true := by decide +kernel

/-- Table 3-4, step 4: 12 entries held and the pool used up. -/
theorem test_createEntry_quota :
    passes (.createEntry 0)
      (asked 0 ([1, 0x10, 0, 0, 0, 0, 0, 7, 0, 0, 0] ++ toBytes 8 5)
        (up.setCounts #v[12, 36, 0, 0] 32))
      (fun t => answers t 0 == [[1, 0x10, 0x08]] && t.mono == []) = true := by decide +kernel

/-- Table 10-12 for a SUSPENDED ONCE entry. -/
theorem test_queryEntry :
    passes (.queryEntry 2) (asked 2 [1, 0x11, 5, 2] (placed 5 2 (plain 2 .suspended (.once 258) 1) up)) (fun t =>
      answers t 2 == [[1, 0x11, 0x00, 5, 2, 2, 0, 4, 2, 1, 0, 0, 7, 0, 0, 0, 2, 1, 0, 0, 0, 0, 0, 0]]) = true := by
  decide +kernel

theorem test_listEntries :
    passes (.listEntries 2)
      (asked 2 [1, 0x12] (placed 5 2 (plain 2 .suspended (.once 5) 1) (placed 9 1 (plain 1 .suspended (.once 5) 1) up)))
      (fun t => answers t 2 == [[1, 0x12, 0x00, 1, 5, 2, 0, 4]]) = true := by decide +kernel

/-- Table 3-4, step 6. -/
theorem test_cancelEntry :
    passes (.cancelEntry 1)
      (asked 1 [1, 0x13, 5, 1]
        (listedMono { id := 5, due := 9, late := false } (placed 5 1 (plain 1 .armed (.once 9) 1) up)))
      (fun t => answers t 1 == [[1, 0x13, 0x00]] && t.slot 5 == { gen := 1, entry := none } && t.mono == [] &&
        t.heldBy 1 == 0) = true := by decide +kernel

/-- Table 3-4, step 9. -/
theorem test_cancelEntry_notOwner :
    passes (.cancelEntry 1) (asked 1 [1, 0x13, 5, 2] (placed 5 2 (plain 0 .suspended (.once 9) 1) up)) (fun t =>
      answers t 1 == [[1, 0x13, 0x05]]) = true := by decide +kernel

/-- Table 4-4, run time 10,400,000. -/
theorem test_suspendEntry :
    passes (.suspendEntry 2)
      (asked 2 [1, 0x14, 7, 4] (listedMono { id := 7, due := 10500000, late := false }
        (placed 7 4 (plain 2 .armed (.periodic 10500000 10000000 250000 0) 3) up)))
      (fun t => t.mono == [] &&
        (t.slot 7).entry == some (plain 2 .suspended (.periodic 10500000 10000000 250000 0) 3)) = true := by
  decide +kernel

/-- Table 4-4, run time 11,130,000: the late mark is set. -/
theorem test_resumeEntry :
    passes (.resumeEntry 2)
      (asked 2 [1, 0x15, 7, 4]
        (atTime 11130000 (placed 7 4 (plain 2 .suspended (.periodic 10500000 10000000 250000 0) 3) up)))
      (fun t => t.mono == [{ id := 7, due := 10500000, late := true }]) = true := by decide +kernel

/-- Table 4-4, the late firing. -/
theorem test_monoFiring_late :
    passes .monoFiring
      (atTime 11130000 (listedMono { id := 7, due := 10500000, late := true }
        (placed 7 4 (plain 2 .armed (.periodic 10500000 10000000 250000 0) 3) up)))
      (fun t => t.mono == [{ id := 7, due := 11250000, late := false }] &&
        (t.slot 7).entry == some (plain 2 .armed (.periodic 11250000 10000000 250000 0) 2) &&
        records t 2 == [.fired
          { handle := { id := 7, gen := 4 }, tag := 7, intended := .run 10500000, fireTime := 11130000,
            civilStamp := none, outcome := .late, skipped := 2, final := false, overtaken := none }]) = true := by decide +kernel

/-- Table 6-3, run time 5,004,000: the line is not owned. -/
theorem test_monoFiring_lineNotOwned :
    passes .monoFiring
      (atTime 5004000 (listedMono { id := 4, due := 5004000, late := false }
        (placed 4 2 { plain 1 .armed (.periodic 5004000 5001000 1000 0) 0 with
          action := some { line := 3, action := .pulse 200 } } up)))
      (fun t => t.line 3 == LineState.reset && t.mono == [{ id := 4, due := 5005000, late := false }]) = true := by
  decide +kernel

/-- 5.2, worked example: no later Friday the 29th of February. -/
theorem test_civilFiring_ends :
    let leapDay : Civil := { year := 2188, month := 2, day := 29, hour := 0, minute := 0, second := 0, micro := 0 }
    let fridays : Pattern :=
      { month := some 2, day := some 29, weekday := some 4, hour := some 0, minute := some 0, second := some 0, micro := 0 }
    passes .civilFiring
      (valid leapDay (listedCivil { id := 6, next := leapDay }
        (placed 6 1 (plain 1 .armed (.pattern fridays (some leapDay) .skip 0) 0) up)))
      (fun t => t.civils == [] && t.slot 6 == { gen := 1, entry := none } && (records t 1).length == 2) = true := by
  decide +kernel

/-! ### Lines and inputs -/

/-- Table 6-3, first row. -/
theorem test_claimLine :
    passes (.claimLine 1) (asked 1 [1, 0x20, 3, 1] up) (fun t =>
      t.line 3 == { claim := some { owner := 1, idle := .high }, level := .high, pulse := none } &&
      answers t 1 == [[1, 0x20, 0x00]]) = true := by decide +kernel

/-- Table 6-3, run time 5,003,600. -/
theorem test_releaseLine :
    passes (.releaseLine 1) (asked 1 [1, 0x21, 3] (owned 3 1 .high .high none up)) (fun t =>
      t.line 3 == LineState.reset) = true := by decide +kernel

/-- Table 6-3, run time 5,001,150. -/
theorem test_driveLine :
    passes (.driveLine 1)
      (asked 1 [1, 0x22, 3, 3, 0x90, 1, 0, 0]
        (atTime 5001150 (owned 3 1 .high .low (some { endAt := 5001200, source := .entry { id := 4, gen := 2 } }) up)))
      (fun t => t.line 3 == { claim := some { owner := 1, idle := .high }, level := .low,
                              pulse := some { endAt := 5001550, source := .direct } } &&
        answers t 1 == [[1, 0x22, 0x00, 0, 1, 4, 2]]) = true := by decide +kernel

/-- Table 6-3, run time 5,001,550. -/
theorem test_pulseEnd :
    passes (.pulseEnd 3) (atTime 5001550 (owned 3 1 .high .low (some { endAt := 5001550, source := .direct }) up))
      (fun t => t.line 3 == { claim := some { owner := 1, idle := .high }, level := .high, pulse := none }) = true := by
  decide +kernel

/-- 7.4, worked example: ACCEPTING, suppressed count 0. -/
theorem test_claimInput :
    passes (.claimInput 1) (asked 1 [1, 0x28, 2, 0, 0xE8, 3] up) (fun t =>
      (t.input 2).claim == some (claimOf 1 1000 none 0) && answers t 1 == [[1, 0x28, 0x00, 0, 0, 0]]) = true := by
  decide +kernel

/-- Table 7-3, run time 2,101,400. -/
theorem test_releaseInput :
    passes (.releaseInput 1)
      (asked 1 [1, 0x29, 2] (atTime 2101400 (watched 2 (claimOf 1 1000 (some 2102300) 0)
        (placed 12 5 (plain 1 .suspended (.afterCapture 2 2000 true none) 0)
          (placed 6 3 (plain 1 .armed (.afterCapture 2 250 true (some 2101550)) 0) up)))))
      (fun t => answers t 1 == [[1, 0x29, 0x00, 1]] && (t.input 2).claim == none && (t.slot 12).entry == none &&
        (t.slot 6).entry.isSome) = true := by decide +kernel

/-- Table 7-3, first row. -/
theorem test_captureEdge_accepted :
    passes (.captureEdge 2 .high)
      (atTime 2100000 (watched 2 (claimOf 1 1000 none 0)
        (placed 12 5 (plain 1 .suspended (.afterCapture 2 2000 true none) 0)
          (placed 9 1 (plain 1 .waiting (.afterCapture 2 0 false none) 1)
            (placed 6 3 (plain 1 .waiting (.afterCapture 2 250 true none) 0) up)))))
      (fun t => (t.input 2).claim == some (claimOf 1 1000 (some 2101000) 0) &&
        t.mono == [{ id := 9, due := 2100000, late := false }, { id := 6, due := 2100250, late := false }] &&
        records t 1 == [.capture { input := 2, polarity := .rising, runStamp := 2100000, civilStamp := none,
                                   suppressed := 0, armed := 2 }]) = true := by decide +kernel

/-- Table 7-3, run time 2,100,600. -/
theorem test_captureEdge_suppressed :
    passes (.captureEdge 2 .high) (atTime 2100600 (watched 2 (claimOf 1 1000 (some 2101000) 0) up)) (fun t =>
      (t.input 2).claim == some (claimOf 1 1000 (some 2101000) 1) && records t 1 == []) = true := by decide +kernel

/-- Table 7-3, run time 2,101,000. -/
theorem test_holdoffExpiry :
    passes (.holdoffExpiry 2) (atTime 2101000 (watched 2 (claimOf 1 1000 (some 2101000) 2) up)) (fun t =>
      (t.input 2).claim == some (claimOf 1 1000 none 2)) = true := by decide +kernel

/-! ### Delivery and links -/

/-- A response goes before the engine's frame (R172). -/
theorem test_transmitStart :
    passes (.transmitStart 3)
      ((withEngine 3 { Engine.reset with state := .awaitAck, frame := .queued } up).respond 3 1 0x32 (Reply.plain .ok))
      (fun t => (t.link 3).tx == some (.response (responseFrame [1, 0x32, 0x00]) false) &&
        (t.port 3).engine.frame == .queued) = true := by decide +kernel

/-- Table 9-5, run time 50,000,300. -/
theorem test_noteTransmissionEnd :
    passes (.noteTransmissionEnd 3)
      (atTime 50000300 (withTx 3 (.note [] true) (withEngine 3 { Engine.reset with state := .awaitAck, frame := .onWire } up)))
      (fun t => (t.port 3).engine == { Engine.reset with state := .awaitAck, ackEnd := some 50010300 } &&
        (t.link 3).tx == none) = true := by decide +kernel

/-- The response of a PORT_RESET has left: the reset takes effect. -/
theorem test_responseTransmissionEnd :
    passes (.responseTransmissionEnd 1) (withTx 1 (.response [] true) (owned 3 1 .high .high none up)) (fun t =>
      (t.port 1).queue.epoch == 1 && t.line 3 == LineState.reset &&
      records t 0 == [.peerReset { port := 1, entries := 0, lines := 1, inputs := 0, runTime := 0 }] &&
      records t 1 == []) = true := by decide +kernel

/-- Table 9-5, run time 50,012,000. -/
theorem test_ackFrame :
    passes (.ackFrame 3)
      ((withQueue 3 [{ seq := 17, lostBefore := 0, record := aFired }, { seq := 18, lostBefore := 0, record := aFired }] 19
        (withEngine 3 { Engine.reset with state := .backoff, attempts := 1, backoffEnd := some 50020300 } up)).setLink 3
          { Link.reset with acks := [[0, 17, 0]] })
      (fun t => (t.port 3).engine == { Engine.reset with state := .awaitAck, frame := .queued, delivered := 1 } &&
        (t.port 3).queue.records.length == 1) = true := by decide +kernel

/-- Table 9-5, last row. -/
theorem test_ackFrame_stale :
    passes (.ackFrame 3) (up.setLink 3 { Link.reset with acks := [[2, 18, 0]] }) (fun t =>
      (t.port 3).engine == { Engine.reset with staleAcks := 1 }) = true := by decide +kernel

/-- R175, R166: an ack timeout that stalls under KEEP and a stale ACK, at one instant in both orders, and the ACK one
microsecond later (notes/assumptions/28). -/
theorem test_ackTimeout_meetsStaleAck :
    let e : Engine := { Engine.reset with
      state := .awaitAck, ackEnd := some 9, config := { DeliveryConfig.reset with retryLimit := 0 } }
    let s := atTime 9 ((withEngine 3 e up).setLink 3 { Link.reset with acks := [[2, 18, 0]] })
    let met := fun t : State => (t.port 3).engine == { e with
      state := .stalled, stalledAt := some 9, attempts := 1, ackEnd := none, staleAcks := 1 }
    passes (.ackFrame 3) s (fun t => passes (.ackTimeout 3) t met) &&
    passes (.ackTimeout 3) s (fun t =>
      passes (.ackFrame 3) t met &&
      passes (.ackFrame 3) (atTime 10 t) (fun u => (u.port 3).engine == { e with
        state := .awaitAck, attempts := 0, frame := .queued, ackEnd := none, retransmissions := 1, staleAcks := 1 })) =
      true := by decide +kernel

/-- Table 9-5, run time 50,010,300. -/
theorem test_ackTimeout :
    passes (.ackTimeout 3)
      (atTime 50010300 (withEngine 3 { Engine.reset with state := .awaitAck, ackEnd := some 50010300 } up))
      (fun t => (t.port 3).engine ==
        { Engine.reset with state := .backoff, attempts := 1, backoffEnd := some 50020300 }) = true := by decide +kernel

/-- Table 9-4, third row: no retry, stall action KEEP. -/
theorem test_ackTimeout_stalls :
    passes (.ackTimeout 3)
      (atTime 9 (withEngine 3 { Engine.reset with
        state := .awaitAck, ackEnd := some 9, config := { ackTimeout := 1, retryLimit := 0, backoffCap := 0, stall := .keep } }
          up))
      (fun t => (t.port 3).engine.state == .stalled && (t.port 3).engine.stalledAt == some 9 &&
        (t.port 3).engine.attempts == 1) = true := by decide +kernel

/-- Table 9-5, run time 50,032,300. -/
theorem test_backoffExpiry :
    passes (.backoffExpiry 3)
      (atTime 50032300
        (withEngine 3 { Engine.reset with state := .backoff, attempts := 1, backoffEnd := some 50032300 } up))
      (fun t => (t.port 3).engine ==
        { Engine.reset with state := .backoff, attempts := 1, frame := .queued, retransmissions := 1 }) = true := by
  decide +kernel

theorem test_setPortConfig :
    passes (.setPortConfig 2) (asked 2 [1, 0x30, 5, 3, 1, 1, 2] up) (fun t =>
      (t.port 2).engine.config == { ackTimeout := 5, retryLimit := 3, backoffCap := 1, stall := .release } &&
      !(t.port 2).queue.timeChangeOn && (t.port 2).queue.peerResetOn) = true := by decide +kernel

/-- The check value of the CRC with this polynomial and start over the nine digits. -/
theorem test_crc : crc [0x31, 0x32, 0x33, 0x34, 0x35, 0x36, 0x37, 0x38, 0x39] = 0x29B1 := by decide +kernel

/-- Table 10-15, run time 6,060: GET_PORT_STATUS in seven characters. -/
theorem test_frameComplete :
    let tail := toBytes 2 (crc [3, 0x01, 9, 0x31]).toNat
    passes (.frameComplete 1 (tail.getD 1 0))
      (underWay 1 4 (withRx 1 (.body 3 [0x01, 9, 0x31, tail.getD 0 0] 0) (atTime 9 up))) (fun t =>
      t.link 1 == { Link.reset with rx := .hunt, fifo := [[9, 0x31]], framesAccepted := 1 }) = true := by
  decide +kernel

/-- Table 10-15, run time 5,060: TYPE 0x81 with the right CRC, after three faults. -/
theorem test_frameComplete_badType :
    let tail := toBytes 2 (crc [3, 0x81, 9, 0x31]).toNat
    passes (.frameComplete 1 (tail.getD 1 0))
      (underWay 1 0 (up.setLink 1 { Link.reset with rx := .body 3 [0x81, 9, 0x31, tail.getD 0 0] 0
                                                    faults := { kind := .badLength, count := 3 } }))
      (fun t => (t.link 1).faults == { kind := .badLength, count := 4 } && (t.link 1).faults.multiple) = true := by
  decide +kernel

/-- Table 10-15, run time 1,020. -/
theorem test_lengthFault :
    passes (.lengthFault 1 0) (underWay 1 0 (withRx 1 (.length 0) up)) (fun t =>
      (t.link 1).rx == .hunt && (t.link 1).faults == { kind := .badLength, count := 1 }) = true := by decide +kernel

/-- Table 10-15, run time 3,061, and not one microsecond sooner. -/
theorem test_gapExpiry :
    passes (.gapExpiry 1) (atTime 3061 (withRx 1 (.body 3 [] 2060) up)) (fun t =>
      (t.link 1).faults.kind == .truncated && (t.link 1).rx == .hunt) = true ∧
    passes (.gapExpiry 1) (atTime 3061 (underWay 1 3060 (withRx 1 (.body 3 [] 2060) up))) (fun t =>
      (t.link 1).rx == .body 3 [] 2060) = true ∧
    passes (.gapExpiry 1) (atTime 3060 (withRx 1 (.body 3 [] 2060) up)) (fun t =>
      (t.link 1).rx == .body 3 [] 2060) = true := by decide +kernel

/-- A break 2,000 µs after the line's change to space and not sooner, its frame cut; the cut frame's end frees the line
and takes no reset. -/
theorem test_breakSeen :
    (let s := withTx 1 (.response [1, 2] true) (underWay 1 5 (withRx 1 .hunt up))
     passes (.breakSeen 1) (atTime 2005 s) (fun t =>
       t.link 1 == { Link.reset with tx := some (.cut [1, 2] false) } && (t.port 1).queue.epoch == 1) &&
     passes (.breakSeen 1) (atTime 2004 s) (fun t => (t.link 1).rx == .hunt)) = true ∧
    passes (.responseTransmissionEnd 1) (withTx 1 (.cut [1, 2] false) up) (fun t =>
      (t.link 1).tx == none && (t.port 1).queue.epoch == 0) = true := by decide +kernel

/-- R88, R125, R127: a firing of port 1 that names a line of port 2, and the reset of port 2 at the same instant, in both
orders: LINE_NOT_OWNED, and the line LOW and unowned after the reset (notes/assumptions/27). -/
theorem test_breakSeen_meetsForeignFiring :
    let s := atTime 2005 (underWay 2 5 (withRx 2 .hunt (owned 3 2 .low .high none (listedMono
      { id := 4, due := 2005, late := false }
      (placed 4 1 { plain 1 .armed (.once 2005) 0 with action := some { line := 3, action := .toIdle } } up)))))
    let outcomes := fun t : State => (records t 1).filterMap (fun r => match r with | .fired x => some x.outcome | _ => none)
    passes .monoFiring s (fun t => t.line 3 == s.line 3 && outcomes t == [.lineNotOwned] &&
      passes (.breakSeen 2) t (fun u => u.line 3 == LineState.reset)) &&
    passes (.breakSeen 2) s (fun t => t.line 3 == LineState.reset &&
      passes .monoFiring t (fun u => u.line 3 == LineState.reset && outcomes u == [.lineNotOwned])) = true := by
  decide +kernel

theorem test_unknownRequest :
    passes (.unknownRequest 1) (asked 1 [5, 0x99, 1, 2] up) (fun t => answers t 1 == [[5, 0x99, 0x03]]) = true := by
  decide +kernel

theorem test_unknownRequest_short :
    passes (.unknownRequest 1) (asked 1 [5] up) (fun t => answers t 1 == [[5, 0x00, 0x02]]) = true := by decide +kernel

/-- Table 10-13 for a port at its reset values, requests executed 1. -/
theorem test_getPortStatus :
    passes (.getPortStatus 1) (asked 1 [5, 0x31] up) (fun t =>
      answers t 1 == [[5, 0x31, 0x00, 0, 0, 10, 7, 4, 0, 3, 0, 0, 0, 0, 0, 0, 0, 0, 0, 0, 0, 0, 0, 0, 1, 0, 0, 0,
        0, 0, 0, 0, 0, 0, 0, 0, 0, 0, 0, 0, 0, 0, 0, 0]]) = true := by decide +kernel

theorem test_clearFaults :
    passes (.clearFaults 1)
      (up.setLink 1 { Link.reset with fifo := [[5, 0x32]], faults := { kind := .badCrc, count := 7 } })
      (fun t => (t.link 1).faults == FaultRecord.clear && answers t 1 == [[5, 0x32, 0x00]]) = true := by decide +kernel

theorem test_getInfo :
    passes (.getInfo 1) (asked 1 [5, 0x33] up) (fun t =>
      answers t 1 == [[5, 0x33, 0x00, 0x74, 0x0A, 0x01, 4, 64, 8, 32, 8, 4, 16, 4]]) = true := by decide +kernel

theorem test_portReset :
    passes (.portReset 1) (asked 1 [5, 0x34] up) (fun t =>
      answers t 1 == [[5, 0x34, 0x00, 1]] && (t.link 1).resetAwaited && (t.port 1).queue.epoch == 0) = true := by
  decide +kernel

theorem test_deviceReset :
    passes .deviceReset (leased 1 9 (valid noon up)) (fun t => t == State.reset) = true := by decide +kernel

theorem test_resetRelease :
    passes (.resetRelease true false .low .high .low .low) State.reset (fun t =>
      t.rstN && t.rate1 && !t.rate0 && (t.input 1).seen == some .high && (t.input 0).seen == some .low) = true := by
  decide +kernel

theorem test_characterReceived :
    passes (.characterReceived 1 0x3C .endsAtMark) (underWay 1 0 (withRx 1 .hunt up)) (fun t =>
      (t.link 1).rx == .hunt && (t.link 1).faults.count == 0) = true ∧
    passes (.characterReceived 1 0xA5 .endsAtMark) (atTime 1010 (underWay 1 1000 (withRx 1 .hunt up))) (fun t =>
      (t.link 1).rx == .length 1010) = true := by decide +kernel

/-- A start bit ends the gap; a stop bit at space leaves the line at space since the last bit at mark, and starts a new
gap (R181, R184). -/
theorem test_characterReceived_moments :
    passes (.characterReceived 1 0x3C .starts) (atTime 7 (withRx 1 (.length 3) up)) (fun t =>
      t.link 1 == { Link.reset with rx := .length 3, spaceSince := some 7, arriving := some 7 }) = true ∧
    passes (.characterReceived 1 0x3C (.endsAtSpace 14)) (atTime 17 (underWay 1 7 (withRx 1 (.length 3) up))) (fun t =>
      t.link 1 == { Link.reset with rx := .length 17, spaceSince := some 14 }) = true ∧
    passes (.characterReceived 1 0 (.endsAtSpace 14)) (atTime 17 (underWay 1 7 (withRx 1 (.length 3) up))) (fun t =>
      (t.link 1).arriving == some 7) = true := by decide +kernel

theorem test_receiveLineAtMark :
    passes (.receiveLineAtMark 1) up (fun t => (t.link 1).rx == .hunt) = true ∧
    passes (.receiveLineAtMark 1) (up.setLink 1 { Link.reset with rx := .length 3, spaceSince := some 2 }) (fun t =>
      t.link 1 == { Link.reset with rx := .length 3 }) = true := by decide +kernel


/-! ### Witnesses: for every statement a state and operands that meet its hypotheses, clause by clause -/

theorem test_witness_StepTakesFrontCommand :
    ({ up with pending := [.leaseExpiry] } : State).pending = .leaseExpiry :: [] := rfl

theorem test_witness_EmptyQueueIsOneReferenceCycle :
    (State.reset.pending = [] ∧ State.reset.rstN = false) ∧
    (∀ n ∈ [0, 8], ({ up with refclkCycles := n } : State).pending = [] ∧ up.rstN = true ∧ n + 1 < 10) ∧
    (({ up with refclkCycles := 9 } : State).pending = [] ∧ 10 ≤ 9 + 1 ∧
      ({ up with refclkCycles := 9 } : State).settled = true) ∧
    (({ leased 0 0 up with refclkCycles := 9 } : State).pending = [] ∧
      ({ leased 0 0 up with refclkCycles := 9 } : State).settled = false) := by decide +kernel

theorem test_witness_DeviceResetAndItsRelease : State.reset.rstN = false := rfl

theorem test_witness_NothingHappensInReset :
    (State.reset.rstN = false ∧ Instr.leaseExpiry ≠ .deviceReset ∧
      ∀ r1 r0 c0 c1 c2 c3, Instr.leaseExpiry ≠ .resetRelease r1 r0 c0 c1 c2 c3) ∧
    (ResetOk State.reset ∧ ∃ t, step State.reset = .next t) ∧ (ResetOk up ∧ ∃ t, step up = .next t) := by
  refine ⟨⟨rfl, by decide, fun _ _ _ _ _ _ h => nomatch h⟩, ⟨fun _ => rfl, _, rfl⟩, ⟨(fun h => nomatch h), _, rfl⟩⟩

theorem test_witness_CalendarAndWeekday :
    isLeap 2004 = true ∧ isLeap 2199 = false ∧ endOfTime.wellFormed = true ∧
    Civil.wellFormed { year := 2000, month := 1, day := 1, hour := 0, minute := 0, second := 0, micro := 0 } = true ∧
    ({ hourly with weekday := some 6, minute := some 0, second := some 41, micro := 999999 } : Pattern).matchesAt noon =
      true := by decide +kernel

theorem test_witness_EndsOfDurations : (2 ^ 64 - 1) + 0 < 2 ^ 64 ∧ 0 + (2 ^ 64 - 1) < 2 ^ 64 := by decide +kernel

theorem test_witness_CivilCounts :
    (endOfTime.wellFormed = true ∧ 6311433599999999 < 6311433600000000) ∧
    (endOfTime.count + 0 < 6311433600000000 ∧ 6311433600000000 ≤ endOfTime.count + 1) ∧
    ({ endOfTime with micro := 999998 } : Civil).count + 1 < 6311433600000000 ∧
    6311433600000000 ≤ ({ endOfTime with micro := 999998 } : Civil).count + 2 := by decide +kernel

/-- A slew one advance before an adjusted one. -/
def slewing (remaining : Int) (count : Nat) (s : State) : State :=
  { s with slew := some { remaining := remaining, rate := 500, interval := 2000, count := count, requester := 0 } }

theorem test_witness_RunTimeAndAdjustedAdvance :
    (up.settled = true ∧ up.runTime + 1 < 2 ^ 64 ∧ up.civil = none) ∧
    (let s := atTime 103 (listedMono { id := 7, due := 5, late := false } up)
     s.rstN = true ∧ s.settled = true ∧ s.runTime + 1 < 2 ^ 64 ∧ s.reachesCalendarEnd = false) ∧
    ((valid noon up).settled = true ∧ (valid noon up).civil = some noon ∧ (noon.advance 1).year ≤ 2199 ∧
      (valid noon up).slew = none) ∧
    ((slewing 1 1998 (valid noon up)).settled = true ∧ 1998 + 1 < 2000) ∧
    ((slewing 2 1999 (valid noon up)).settled = true ∧ 2000 ≤ 1999 + 1 ∧ (noon.advance 2).year ≤ 2199) ∧
    ((slewing 1 1999 (valid noon up)).settled = true ∧ (1 : Int) - 1 = 0) ∧
    ((slewing (-1) 1999 (valid noon up)).settled = true ∧ (noon.advance 0).year ≤ 2199) ∧
    ((atTime (2 ^ 64 - 1) up).settled = true ∧ 2 ^ 64 ≤ (atTime (2 ^ 64 - 1) up).runTime + 1) ∧
    ((atTime (2 ^ 64 - 1) (slewing 1 1999 (valid noon up))).settled = true ∧
      2199 < (endOfTime.advance (advanceAmount (valid endOfTime up).slew)).year) ∧
    ((leased 0 0 up).settled = false ∧ up.adjustsNext = false) := by decide +kernel

/-- Each condition that holds an advance back, at its boundary: the last instant at which it does not hold, and the first at
which it does. -/
theorem test_witness_settled :
    (∀ s ∈ [leased 0 5 up, owned 7 0 .low .high (some { endAt := 5, source := .direct }) up,
        watched 3 (claimOf 1 7 (some 5) 0) up, withEngine 3 { Engine.reset with ackEnd := some 5 } up,
        withEngine 3 { Engine.reset with backoffEnd := some 5 } up],
      (atTime 4 s).settled = true ∧ (atTime 5 s).settled = false) ∧
    (∀ rx ∈ [Receiver.length 3, .body 1 [] 3],
      (atTime 1003 (withRx 1 rx up)).settled = true ∧ (atTime 1004 (withRx 1 rx up)).settled = false) ∧
    ((atTime 2002 (underWay 1 3 up)).settled = true ∧ (atTime 2003 (underWay 1 3 up)).settled = false) ∧
    (let s := listedMono { id := 7, due := 5, late := false } up
     (atTime 5 s).settled = true ∧ (atTime 4 { s with reached := { mono := true, civil := false } }).settled = true ∧
      (atTime 5 { s with reached := { mono := true, civil := false } }).settled = false ∧
      (atTime 103 s).settled = true ∧ (atTime 104 s).settled = false ∧
      (atTime 104 (listedMono { id := 7, due := 5, late := true } up)).settled = true) ∧
    (let s := valid noon (listedCivil { id := 7, next := noon } up)
     s.settled = true ∧ ({ s with reached := { mono := false, civil := true } } : State).settled = false) := by
  refine ⟨?_, ?_, ?_, ?_, ?_⟩ <;> decide +kernel

/-- The heads an advance reaches. -/
theorem test_witness_reachedHeads :
    (let s := listedMono { id := 7, due := 5, late := false } up
     (reachedHeads (atTime 4 s) (atTime 5 s)).mono = true ∧ (reachedHeads (atTime 5 s) (atTime 6 s)).mono = false) ∧
    (let s := listedCivil { id := 7, next := noon.advance 1 } up
     (reachedHeads (valid noon s) (valid (noon.advance 2) s)).civil = true ∧
      (reachedHeads (valid noon s) (valid noon s)).civil = false) := by
  refine ⟨?_, ?_⟩ <;> decide +kernel

theorem test_witness_CalendarEnd :
    ((valid endOfTime up).settled = true ∧ 2199 < (endOfTime.advance (advanceAmount (valid endOfTime up).slew)).year) ∧
    (let c : Civil := { endOfTime with micro := 999998 }
     (slewing 5 1999 (valid c up)).settled = true ∧
      2199 < (c.advance (advanceAmount (slewing 5 1999 (valid c up)).slew)).year) ∧
    ((atTime (2 ^ 64 - 1) (valid endOfTime up)).settled = true ∧ (noon.advance (advanceAmount none)).year ≤ 2199) := by
  decide +kernel

theorem test_witness_SecondBoundary :
    (let x : PendingStep := { offset := 1, requester := 0, reached := some noon }
     let s : State := { valid noon up with step := some x }
     s.rstN = true ∧ s.civil = some noon ∧ s.step = some x ∧ x.reached = some noon) ∧
    (up.step.bind (fun x => x.reached) = none) := by decide +kernel

theorem test_witness_ReadTime : Requested (asked 0 [9, 0x01] up) 0 9 0x01 [] := by decide +kernel

theorem test_witness_ClaimAuthority :
    (∀ ms ∈ [99, 100, 600000, 600001], Requested (asked 1 ([9, 0x02] ++ toBytes 4 ms) up) 1 9 0x02 (toBytes 4 ms)) ∧
    up.lease = none ∧
    (∀ q ∈ [(1 : Port), 2],
      Requested (asked 1 ([9, 0x02] ++ toBytes 4 100) (leased q 9 up)) 1 9 0x02 (toBytes 4 100)) := by decide +kernel

theorem test_witness_EndsOfTheAuthority :
    (∀ q ∈ [(1 : Port), 2], Requested (asked 1 [9, 0x03] (leased q 9 up)) 1 9 0x03 []) ∧
    Requested (asked 1 [9, 0x03] up) 1 9 0x03 [] ∧
    ((atTime 9 (leased 1 9 up)).rstN = true ∧ 9 ≤ (atTime 9 (leased 1 9 up)).runTime) ∧
    ((atTime 8 (leased 1 9 up)).rstN = true ∧ (atTime 8 (leased 1 9 up)).runTime < 9) ∧
    (up.rstN = true ∧ up.lease = none) := by decide +kernel

theorem test_witness_CivilChangeNeedsTheAuthority :
    ∀ x ∈ [(Instr.setCivil 1, (0x04 : Byte)), (.stepCivil 1, 0x05), (.cancelStep 1, 0x06), (.slewCivil 1, 0x07),
      (.invalidateCivil 1, 0x08)],
      requestOf x.1 = some (1, x.2) ∧ 4 ≤ x.2.toNat ∧ x.2.toNat ≤ 8 ∧
      (let args := List.replicate ((requestLength x.2).getD 99) (0 : Byte)
       requestLength x.2 = some args.length ∧
        Requested (asked 1 ([9, x.2] ++ args) (leased 2 9 up)) 1 9 x.2 args ∧
        Requested (asked 1 ([9, x.2] ++ args) up) 1 9 x.2 args) := by decide +kernel

/-- The greatest record of Table 10-7, in no field in range. -/
def widest : Civil :=
  { year := 65535, month := 255, day := 255, hour := 255, minute := 255, second := 255, micro := 4294967295 }

theorem test_witness_SetCivil :
    (widest.fits ∧ widest.wellFormed = false ∧
      Requested (asked 0 ([9, 0x04] ++ (widest.bytes.take 11 ++ [255])) (leased 0 9 up)) 0 9 0x04
        (widest.bytes.take 11 ++ [255])) ∧
    (endOfTime.fits ∧ endOfTime.wellFormed = true ∧
      Requested (asked 0 ([9, 0x04] ++ (endOfTime.bytes.take 11 ++ [0])) (leased 0 9 up)) 0 9 0x04
        (endOfTime.bytes.take 11 ++ [0])) ∧
    Requested (asked 0 ([9, 0x04] ++ (noon.bytes.take 11 ++ [0])) (leased 0 9 (valid endOfTime up))) 0 9 0x04
      (noon.bytes.take 11 ++ [0]) := by
  unfold Civil.fits
  decide +kernel

/-- A STEP_CIVIL request of the holder. -/
def stepAsked (offset : Int) (mode : Byte) (s : State) : State :=
  asked 0 ([9, 0x05] ++ (signedBytes 8 offset ++ [mode])) (leased 0 9 s)

theorem test_witness_StepCivil :
    (∀ mode ∈ [(0 : Byte), 1, 2, 255],
      ∀ offset ∈ [-(2 ^ 63) , 2 ^ 63 - 1, (0 : Int)], -(2 ^ 63) ≤ offset ∧ offset < 2 ^ 63 ∧
        Requested (stepAsked offset mode up) 0 9 0x05 (signedBytes 8 offset ++ [mode]) ∧
        Requested (stepAsked offset mode (valid noon up)) 0 9 0x05 (signedBytes 8 offset ++ [mode])) ∧
    (stepAsked 0 0 { valid noon up with step := some { offset := 1, requester := 0, reached := none } }).step ≠ none ∧
    inCivilRange ((endOfTime.count : Int) + 1) = false ∧ inCivilRange ((endOfTime.count : Int) + 0) = true ∧
    (let target := Civil.nextSecond { noon with micro := 0 }
     target.year ≤ 2199 ∧ inCivilRange ((target.count : Int) - target.count) = true ∧
      inCivilRange ((target.count : Int) - target.count - 1) = false) ∧
    2199 < (Civil.nextSecond { endOfTime with micro := 0 }).year := by decide +kernel

theorem test_witness_CancelStep :
    Requested (asked 0 [9, 0x06] (leased 0 9 up)) 0 9 0x06 [] ∧
    (let x : PendingStep := { offset := 1, requester := 0, reached := none }
     let s := asked 0 [9, 0x06] (leased 0 9 { valid noon up with step := some x })
     Requested s 0 9 0x06 [] ∧ s.step = some x) := by decide +kernel

theorem test_witness_SlewCivil :
    ∀ offset ∈ [(0 : Int), 1, -1, 10000000, -10000000, 10000001, -(2 ^ 31), 2 ^ 31 - 1],
      ∀ rate ∈ [0, 1, 500, 501, 65535],
        Requested (asked 0 ([9, 0x07] ++ (signedBytes 4 offset ++ toBytes 2 rate)) (leased 0 9 up)) 0 9 0x07
          (signedBytes 4 offset ++ toBytes 2 rate) ∧
        Requested (asked 0 ([9, 0x07] ++ (signedBytes 4 offset ++ toBytes 2 rate)) (leased 0 9 (valid noon up))) 0 9 0x07
          (signedBytes 4 offset ++ toBytes 2 rate) := by decide +kernel

theorem test_witness_InvalidateCivil :
    Requested (asked 0 [9, 0x08] (leased 0 9 up)) 0 9 0x08 [] ∧
    Requested (asked 0 [9, 0x08] (leased 0 9 (valid noon up))) 0 9 0x08 [] := by decide +kernel

theorem test_witness_RequestWaitsOrIsMalformed :
    ((up.link 0).fifo = [] ∧ requestOf (.readTime 0) = some (0, 0x01)) ∧
    (let s := up.setLink 0 { Link.reset with fifo := [[9, 0x01]],
                                             responses := List.replicate 4 { payload := [], resets := false } }
     s.rstN = true ∧ 4 ≤ (s.link 0).responses.length) ∧
    (let s := up.setLink 0 { Link.reset with fifo := [[9, 0x01]], responses := [{ payload := [], resets := true }] }
     (s.link 0).resetAwaited = true) ∧
    (requestLength 0x01 = some 0 ∧ Requested (asked 0 [9, 0x01, 5] up) 0 9 0x01 [5]) := by decide +kernel

theorem test_witness_UnknownRequest :
    (∀ x ∈ [([] : List Byte), [7], [7, 0x00, 1], [7, 0x09], [7, 0xFF, 1, 2]],
      let s := asked 0 x up
      s.rstN = true ∧ (s.link 0).responses.length < 4 ∧ (s.link 0).resetAwaited = false ∧
        (s.link 0).fifo.head? = some x) ∧
    ∀ code ∈ [(0x00 : Byte), 0x09, 0x0F, 0x16, 0x35, 0xFF], code.toNat ≠ 0x10 ∧ requestLength code = none := by
  decide +kernel

/-- Arguments of a CREATE_ENTRY at the ends of their ranges, one of each kind. -/
def someArgs : List (CreateArgs × Nat × Nat) :=
  [({ timing := .once (2 ^ 64 - 1), remaining := 1, action := none, notify := .always, tag := 0 }, 65535, 0),
   ({ timing := .once 0, remaining := 1, action := some { line := 7, action := .toggle }, notify := .never,
      tag := 0xFFFFFFFF }, 0, 4294967295),
   ({ timing := .periodic (2 ^ 64 - 1) (2 ^ 64 - 1) 100 0, remaining := 65535,
      action := some { line := 0, action := .pulse 1 }, notify := .faultsOnly, tag := 1 }, 65535, 1),
   ({ timing := .periodic 0 0 4294967295 0, remaining := 0, action := some { line := 7, action := .pulse 1000000 },
      notify := .always, tag := 1 }, 0, 1000000),
   ({ timing := .pattern { month := some 12, day := some 31, weekday := some 6, hour := some 23, minute := some 59,
                           second := some 59, micro := 999999 } none .skip 0, remaining := 9,
      action := some { line := 1, action := .toActive }, notify := .always, tag := 1 }, 9, 0),
   ({ timing := .pattern { month := none, day := none, weekday := none, hour := none, minute := none, second := none,
                           micro := 0 } none .catchUp 0, remaining := 9,
      action := some { line := 1, action := .toIdle }, notify := .always, tag := 1 }, 9, 7),
   ({ timing := .afterCapture 3 4294967295 true none, remaining := 2, action := none, notify := .always, tag := 1 },
    2, 0)]

theorem test_witness_CreateArguments :
    (∀ x ∈ someArgs, x.1.inRange x.2.1 ∧ x.2.2 < 4294967296 ∧
      (∀ y w, x.1.action = some y → y.action = .pulse w → x.2.2 = w)) ∧
    ∃ args a, decodeCreate args = .ok a := by
  refine ⟨?_, [0, 0, 0, 0, 0, 7, 0, 0, 0, 5, 0, 0, 0, 0, 0, 0, 0], _, rfl⟩
  simp [someArgs, CreateArgs.inRange, Pattern.inRange, Config.runTimeLimit]
  refine ⟨⟨?_, ?_⟩, ⟨?_, ?_⟩, ⟨?_, ?_⟩, ⟨?_, ?_⟩, ?_, ?_⟩ <;> (rintro _ w rfl h; simp at h; try omega)

/-- The arguments above are read back. -/
theorem test_createArguments :
    someArgs.all (fun x => match decodeCreate (x.1.argument x.2.1 x.2.2) with
      | .ok a => a == x.1
      | .error _ => false) = true := by decide +kernel

/-- The status a refused argument field is answered with. -/
def refusal (args : List Byte) : Option Status :=
  match decodeCreate args with
  | .ok _ => none
  | .error st => some st

/-- Lengths by kind, line action flag and presence mask are checked first, then the ranges (R50, Table 10-10). -/
theorem test_createArguments_refused :
    ([[], [4, 0, 0, 0, 0, 7, 0, 0], [0, 0, 0, 0, 0, 7, 0, 0, 0] ++ toBytes 7 5,
      [0, 1, 0, 0, 0, 7, 0, 0, 0] ++ toBytes 8 5, [1, 0, 0, 0, 0, 7, 0, 0, 0] ++ toBytes 13 5,
      [2, 0, 0, 0, 0, 7, 0, 0, 0, 3, 1] ++ toBytes 4 0 ++ [1], [3, 0, 0, 0, 0, 7, 0, 0, 0, 0] ++ toBytes 5 0 ++ [2],
      [3, 2, 0, 0, 9, 7, 0, 0, 0] ++ toBytes 7 0].all (fun x => refusal x == some .malformed)) = true ∧
    ([[4, 0, 0, 0, 0, 7, 0, 0, 0], [255, 1, 0, 0, 0, 7, 0, 0, 0, 1], [0, 2, 0, 0, 0, 7, 0, 0, 0] ++ toBytes 8 5,
      [0, 0, 0, 0, 3, 7, 0, 0, 0] ++ toBytes 8 5, [1, 0, 0, 0, 0, 7, 0, 0, 0] ++ toBytes 8 5 ++ toBytes 4 99,
      [2, 0, 0, 0, 0, 7, 0, 0, 0, 64] ++ toBytes 4 0 ++ [1], [2, 0, 0, 0, 0, 7, 0, 0, 0, 1, 13] ++ toBytes 4 0 ++ [1],
      [2, 0, 0, 0, 0, 7, 0, 0, 0, 0] ++ toBytes 4 1000000 ++ [1], [2, 0, 0, 0, 0, 7, 0, 0, 0, 0] ++ toBytes 4 0 ++ [2],
      [3, 0, 0, 0, 0, 7, 0, 0, 0, 4] ++ toBytes 4 0 ++ [1], [3, 0, 0, 0, 0, 7, 0, 0, 0, 0] ++ toBytes 4 0 ++ [2],
      [0, 1, 0, 0, 0, 7, 0, 0, 0, 8, 0] ++ toBytes 4 0 ++ toBytes 8 5,
      [0, 1, 0, 0, 0, 7, 0, 0, 0, 7, 3] ++ toBytes 4 1000001 ++ toBytes 8 5].all
        (fun x => refusal x == some .range)) = true := by
  refine ⟨?_, ?_⟩ <;> decide +kernel

/-- The CREATE_ENTRY arguments of an AFTER_CAPTURE entry on input 2 with a line action on line 3. -/
def captureArgs : List Byte := [3, 1, 0, 0, 0, 7, 0, 0, 0, 3, 2, 0, 0, 0, 0, 2, 5, 0, 0, 0, 1]

/-- The CREATE_ENTRY arguments of a PATTERN entry without line action. -/
def patternArgs (month day : Byte) : List Byte :=
  [2, 0, 0, 0, 0, 7, 0, 0, 0, 3, month, day, 0, 0, 0, 0, 1]

def decodes (args : List Byte) : Option CreateArgs :=
  match decodeCreate args with
  | .ok a => some a
  | .error _ => none

theorem test_witness_CreateEntryRefused :
    (Requested (asked 0 [9, 0x10] up) 0 9 0x10 [] ∧ decodeCreate [] = .error .malformed) ∧
    (Requested (asked 0 ([9, 0x10] ++ patternArgs 2 30) up) 0 9 0x10 (patternArgs 2 30) ∧
      (decodes (patternArgs 2 30)).map (fun a => match a.timing with
        | .pattern p _ _ _ => p.impossible
        | _ => false) = some true) ∧
    (Requested (asked 0 ([9, 0x10] ++ captureArgs) up) 0 9 0x10 captureArgs ∧
      (decodes captureArgs).map (fun a => a.action) = some (some { line := 3, action := .toggle }) ∧
      up.ownsLine 0 3 = false) ∧
    ((decodes captureArgs).map (fun a => a.timing) = some (.afterCapture 2 5 true none) ∧
      (owned 3 0 .low .low none up).ownsLine 0 3 = true ∧ (owned 3 0 .low .low none up).ownsInput 0 2 = false) ∧
    (let s := up.setCounts #v[8, 40, 0, 0] 32
     8 ≤ s.heldBy 0 ∧ 32 ≤ s.poolUse) ∧
    ((decodes (patternArgs 2 29)).bind (fun a => match a.timing with
        | .pattern p _ _ _ => some (p.impossible, p.atOrAfter endOfTime)
        | _ => none) = some (false, none) ∧
      (valid endOfTime up).civil = some endOfTime) := by decide +kernel

theorem test_witness_CreateEntry :
    (∀ args ∈ [[0, 0, 0, 0, 0, 7, 0, 0, 0] ++ toBytes 8 5, [1, 0, 0, 0, 0, 7, 0, 0, 0] ++ toBytes 8 5 ++ toBytes 4 100,
        patternArgs 2 29, captureArgs],
      let s := asked 0 ([9, 0x10] ++ args) (watched 2 (claimOf 0 0 none 0) (owned 3 0 .low .low none up))
      Requested s 0 9 0x10 args ∧
      (∃ a ∈ decodes args, ∀ x ∈ a.action, s.ownsLine 0 x.line = true) ∧ s.ownsInput 0 2 = true ∧ s.heldBy 0 < 8 ∧
      (s.slot 0).entry = none ∧ ∀ j : EntryId, j < 0 → (s.slot j).entry ≠ none) ∧
    (let s := (placed 0 1 (plain 0 .suspended (.once 5) 1) up).setCounts #v[9, 38, 0, 0] 31
     s.poolUse < 32 ∧ (s.slot 1).entry = none ∧ ∀ j : EntryId, j < 1 → (s.slot j).entry ≠ none) ∧
    ((decodes (patternArgs 2 29)).bind (fun a => match a.timing with
        | .pattern p _ _ _ => some (p.impossible, (p.atOrAfter noon).isSome)
        | _ => none) = some (false, true)) := by decide +kernel

theorem test_witness_TableAndListOperations :
    ((placed 5 1 (plain 0 .armed (.once 5) 1) up).slot 5).entry = some (plain 0 .armed (.once 5) 1) ∧
    (let xs : List MonoPos := [{ id := 0, due := 4, late := false }, { id := 63, due := 4, late := true }]
     xs.Pairwise (fun a b => a.before b = true) ∧ ∀ y ∈ xs, y.id ≠ 5) ∧
    (let xs : List CivilPos := [{ id := 0, next := noon }, { id := 63, next := endOfTime }]
     xs.Pairwise (fun a b => a.before b = true) ∧ ∀ y ∈ xs, y.id ≠ 5) := by decide +kernel

/-- The first nine ids held by port 0. -/
def nineHeld : State :=
  { up with
    slots := Vector.ofFn (fun i : EntryId =>
      if i < 9 then { gen := 1, entry := some (plain 0 .suspended (.once 5) 1) } else Slot.reset)
    held := #v[9, 0, 0, 0], poolUse := 1 }

theorem test_witness_QuotaFindsAFreeSlot :
    (CountsOk up ∧ up.heldBy 0 < 8) ∧ (CountsOk nineHeld ∧ ¬nineHeld.heldBy 0 < 8 ∧ nineHeld.poolUse < 32) := by
  unfold CountsOk
  refine ⟨⟨?_, by decide +kernel⟩, ?_, by decide +kernel, by decide +kernel⟩ <;> decide +kernel

/-- Port 1 holds entry 63, of generation 2. -/
def heldLast : State := placed 63 2 (plain 1 .suspended (.once 5) 1) up

theorem test_witness_EntryHandleChecks :
    (∀ x ∈ [(Instr.queryEntry 0, (0x11 : Byte)), (.cancelEntry 0, 0x13), (.suspendEntry 0, 0x14),
        (.resumeEntry 0, 0x15)],
      requestOf x.1 = some (0, x.2) ∧ (x.2 = 0x11 ∨ x.2 = 0x13 ∨ x.2 = 0x14 ∨ x.2 = 0x15)) ∧
    (∀ code ∈ [(0x11 : Byte), 0x13, 0x14, 0x15], ∀ id ∈ [(64 : Byte), 255, 0, 63],
      Requested (asked 0 [9, code, id, 1] heldLast) 0 9 code [id, 1] ∧
        Requested (asked 0 [9, code, id, 2] heldLast) 0 9 code [id, 2]) ∧
    (∀ code ∈ [(0x11 : Byte), 0x13, 0x14, 0x15], ∀ args ∈ [[], [(63 : Byte)], [63, 2, 0]],
      args.length ≠ 2 ∧ Requested (asked 0 ([9, code] ++ args) heldLast) 0 9 code args) ∧
    (heldLast.slot 0).entry = none ∧ (heldLast.slot 63).gen ≠ 1 ∧
    (heldLast.slot 63).entry = some (plain 1 .suspended (.once 5) 1) ∧ (heldLast.slot 63).gen = 2 ∧
    (plain 1 .suspended (.once 5) 1).owner ≠ 0 := by
  refine ⟨?_, ?_, ?_, ?_, ?_, ?_, ?_, ?_⟩ <;> decide +kernel

theorem test_witness_QueryAndListEntries :
    (∀ x ∈ [Timing.once 5, .periodic 5 5 100 0, .pattern hourly (some noon) .skip 0, .afterCapture 1 5 true none],
      ∀ id ∈ [(0 : EntryId), 63],
        let s := asked 2 [9, 0x11, BitVec.ofNat 8 id.val, 1] (placed id 1 (plain 2 .suspended x 1) up)
        Requested s 2 9 0x11 [BitVec.ofNat 8 id.val, (s.slot id).gen] ∧
          (s.slot id).entry = some (plain 2 .suspended x 1)) ∧
    Requested (asked 2 [9, 0x12] up) 2 9 0x12 [] := by decide +kernel

theorem test_witness_CancelAndSuspendEntry :
    ∀ st ∈ [EntryState.armed, .suspended],
      let s := placed 63 1 (plain 2 st (.once 5) 1) up
      (s.slot 63).entry = some (plain 2 st (.once 5) 1) ∧
      Requested (asked 2 [9, 0x13, 63, 1] s) 2 9 0x13 [63, (s.slot 63).gen] ∧
      Requested (asked 2 [9, 0x14, 63, 1] s) 2 9 0x14 [63, (s.slot 63).gen] := by decide +kernel

theorem test_witness_ResumeEntry :
    (∀ x ∈ [Timing.once 5, .periodic 5 5 100 0, .pattern hourly none .skip 0, .afterCapture 1 5 true none],
      ∀ st ∈ [EntryState.armed, .suspended],
        let s := asked 2 [9, 0x15, 63, 1] (placed 63 1 (plain 2 st x 1) up)
        Requested s 2 9 0x15 [63, (s.slot 63).gen] ∧ (s.slot 63).entry = some (plain 2 st x 1)) ∧
    (hourly.atOrAfter noon ≠ none ∧ (valid noon up).civil = some noon) ∧
    (hourly.atOrAfter endOfTime = none ∧ (valid endOfTime up).civil = some endOfTime) ∧
    up.ownsInput 2 1 = false ∧ (watched 1 (claimOf 2 0 none 0) up).ownsInput 2 1 = true := by decide +kernel

theorem test_witness_LineActionAtLineControl :
    up.ownsLine 0 7 = false ∧ (owned 7 1 .low .low none up).ownsLine 0 7 = false ∧
    (let s := owned 7 0 .low .high (some { endAt := 5, source := .direct }) up
     (s.line 7).claim = some { owner := 0, idle := .low }) := by decide +kernel

theorem test_witness_FiringProcedure :
    (up.fire 5 (plain 0 .armed (.once 5) 1) (.run 5) false true).final = true ∧
    ({ plain 0 .armed (.periodic 5 5 100 3) 0 with notify := .never } : Entry).notify ≠ .always ∧
    ((false || (0 : Nat) == 1) = false) ∧
    (let e : Entry := { plain 0 .armed (.periodic 5 5 100 3) 0 with
                        notify := .faultsOnly, action := some { line := 0, action := .toggle } }
     firingOutcome (up.askLine e.action e.owner .direct).2.owned false ≠ .ok) := by decide +kernel

theorem test_witness_MonoFiring :
    (∀ x ∈ [(Timing.once 5, false), (.periodic 5 5 100 0, false), (.periodic 5 5 100 0, true),
        (.afterCapture 1 5 true (some 5), false), (.afterCapture 1 5 false (some 5), false)],
      let s := atTime 5 (listedMono { id := 5, due := 5, late := x.2 } (placed 5 1 (plain 0 .armed x.1 0) up))
      s.rstN = true ∧ s.mono = [{ id := 5, due := 5, late := x.2 }] ∧ 5 ≤ s.runTime ∧
        (s.slot 5).entry = some (plain 0 .armed x.1 0)) ∧
    (atTime 4 up).runTime < 5 ∧ (∀ now ∈ [5, 104], now < 5 + 100 ∧ 5 + 100 < 2 ^ 64) ∧ 5 + (5 - 5) / 100 * 100 + 100 < 2 ^ 64 ∧
    (up.fire 5 (plain 0 .armed (.periodic 5 5 100 0) 1) (.run 5) false false).final = true ∧
    (up.fire 5 (plain 0 .armed (.periodic 5 5 100 0) 0) (.run 5) false false).final = false ∧
    (up.fire 5 (plain 0 .armed (.periodic 5 5 100 0) 2) (.run 5) false false).final = false ∧
    up.ownsInput 0 1 = false ∧ (watched 1 (claimOf 0 0 none 0) up).ownsInput 0 1 = true := by decide +kernel

theorem test_witness_CivilFiring :
    (∀ x ∈ [0, 1],
      let e := plain 0 .armed (.pattern hourly (some noon) .skip 0) x
      let s := valid noon (listedCivil { id := 5, next := noon } (placed 5 1 e up))
      s.rstN = true ∧ s.civil = some noon ∧ s.civils = [{ id := 5, next := noon }] ∧ noon.count ≤ noon.count ∧
        (s.slot 5).entry = some e ∧
        (({ s with reached := { s.reached with civil := false } } : State).fire 5 e (.civil noon) false false).final =
          decide (x = 1)) ∧
    noon.count < endOfTime.count ∧ hourly.strictlyAfter noon ≠ none ∧ hourly.strictlyAfter endOfTime = none := by
  decide +kernel

theorem test_witness_PatternSearchIsExact :
    hourly.inRange = true ∧ noon.wellFormed = true ∧ endOfTime.wellFormed = true ∧
    hourly.atOrAfter noon ≠ none ∧ hourly.atOrAfter endOfTime = none ∧
    hourly.strictlyAfter noon ≠ none ∧ hourly.strictlyAfter endOfTime = none ∧
    ({ hourly with minute := some 59, second := some 59, micro := 999999 } : Pattern).atOrAfter endOfTime =
      some endOfTime := by decide +kernel

theorem test_witness_StepsReachPatternEntries :
    noon.count < endOfTime.count ∧
    (∀ policy ∈ [SkipPolicy.catchUp, .skip], ∀ x ∈ [0, 1],
      let e := plain 0 .armed (.pattern hourly (some noon) policy 200) x
      let s := placed 5 1 e up
      (s.slot 5).entry = some e ∧ (s.fire 5 e (.civil noon) true false).final = decide (x = 1)) ∧
    hourly.atOrAfter noon ≠ none ∧ hourly.atOrAfter endOfTime = none ∧
    (let m : Civil := { noon with hour := 0, minute := 30, second := 0, micro := 0 }
     hourly.inRange = true ∧ m.wellFormed = true ∧ hourly.matchesAt m = true ∧ endOfTime.wellFormed = true ∧
      m.count < (m.advance 1).count ∧ hourly.passedMatches m (m.advance 1) = 1 ∧ hourly.passedMatches m noon = 12 ∧
      hourly.passedMatches m endOfTime = 255) ∧
    (let e := plain 0 .dormant (.pattern hourly none .skip 0) 0
     ((placed 5 1 e up).slot 5).entry = some e ∧ e.state = .dormant ∧ ((placed 5 1 e up).slot 6).entry = none) := by
  refine ⟨?_, ?_, ?_, ?_, ?_, ?_⟩ <;> decide +kernel

/-- The first set of civil time arms a DORMANT entry and ends one that has no match left. -/
theorem test_wakePatterns :
    (let s := placed 5 1 (plain 0 .dormant (.pattern hourly none .skip 0) 0) up
     ((s.wakePatterns noon).slot 5).entry.map (fun e => e.state) == some .armed && (s.wakePatterns endOfTime).slot 5 ==
      { gen := 1, entry := none }) = true := by decide +kernel

theorem test_witness_LineRequests :
    (∀ x ∈ [[(8 : Byte), 0], [255, 1], [7, 2], [7, 255], [0, 0], [7, 1]],
      Requested (asked 0 ([9, 0x20] ++ x) up) 0 9 0x20 x) ∧
    ((7 : Byte).toNat = (7 : Line).val ∧ (1 : Byte) = levelCode .high ∧ (0 : Byte) = levelCode .low ∧
      (up.line 7).claim = none) ∧
    (∀ q ∈ [(0 : Port), 1],
      let s := owned 7 q .low .high none up
      (s.line 7).claim = some { owner := q, idle := .low } ∧ s.ownsLine 0 7 = decide (q = 0)) ∧
    (∀ q ∈ [(0 : Port), 1],
      Requested (asked 0 [9, 0x20, 7, 1] (owned 7 q .low .high none up)) 0 9 0x20 [7, 1]) ∧
    (∀ q ∈ [(0 : Port), 1], ∀ l ∈ [(7 : Byte), 8, 255],
      Requested (asked 0 [9, 0x21, l] (owned 7 q .low .high none up)) 0 9 0x21 [l]) ∧
    (∀ x ∈ [((0 : Byte), 4294967295), (2, 0), (3, 0), (3, 1), (3, 1000000), (3, 1000001), (4, 1), (255, 1)],
      Requested (asked 0 ([9, 0x22] ++ (7 :: x.1 :: toBytes 4 x.2)) (owned 7 0 .low .high none up)) 0 9 0x22
        (7 :: x.1 :: toBytes 4 x.2)) := by
  refine ⟨?_, ?_, ?_, ?_, ?_, ?_⟩ <;> decide +kernel

theorem test_witness_PulseEndEvent :
    (∀ x ∈ [(4, none), (5, some 5), (4, some 5)],
      let pulse : Option PulseEnd := x.2.map (fun t => { endAt := t, source := .direct })
      let s := atTime x.1 (owned 7 0 .low .high pulse up)
      s.rstN = true ∧ (s.line 7).claim = some { owner := 0, idle := .low } ∧ (s.line 7).pulse = pulse ∧
        s.runTime = x.1) := by decide +kernel

theorem test_witness_InputRequests :
    (∀ x ∈ [[(4 : Byte), 0], [255, 0], [3, 3], [3, 255], [0, 0], [3, 1], [3, 2]],
      Requested (asked 0 ([9, 0x28] ++ (x ++ toBytes 2 65535)) up) 0 9 0x28 (x ++ toBytes 2 65535)) ∧
    ((3 : Byte).toNat = (3 : Input).val ∧ (up.input 3).claim = none ∧ up.ownsInput 0 3 = false) ∧
    (∀ q ∈ [(0 : Port), 1], ∀ e ∈ [none, some 9],
      let s := watched 3 (claimOf q 7 e 2) up
      (s.input 3).claim = some (claimOf q 7 e 2) ∧ s.ownsInput 0 3 = decide (q = 0)) ∧
    (∀ q ∈ [(0 : Port), 1], ∀ e ∈ [none, some 9],
      Requested (asked 0 [9, 0x28, 3, 2, 9, 0] (watched 3 (claimOf q 7 e 2) up)) 0 9 0x28 [3, 2, 9, 0]) ∧
    (∀ q ∈ [(0 : Port), 1], ∀ i ∈ [(3 : Byte), 4, 255],
      Requested (asked 0 [9, 0x29, i] (watched 3 (claimOf q 7 none 2) up)) 0 9 0x29 [i]) := by
  refine ⟨?_, ?_, ?_, ?_, ?_⟩ <;> decide +kernel

theorem test_witness_CaptureEdge :
    ((up.input 3).seen = some .low ∧ (up.input 3).seen = some (flipLevel .high) ∧ (up.input 3).claim = none) ∧
    (∀ mode ∈ [EdgeMode.rising, .falling, .both], ∀ holdoff ∈ [0, 65535], ∀ e ∈ [none, some 9],
      let c : InputClaim := { owner := 1, mode := mode, holdoff := holdoff, holdoffEnd := e, suppressed := 65535 }
      let s := watched 3 c up
      s.rstN = true ∧ (s.input 3).claim = some c ∧ (s.input 3).seen = some (flipLevel .high) ∧
        c.mode.accepts .rising = decide (mode ≠ .falling)) := by decide +kernel

theorem test_witness_HoldoffExpiry :
    ∀ x ∈ [(4, none), (5, some 5), (4, some 5)],
      let s := atTime x.1 (watched 3 (claimOf 1 7 x.2 0) up)
      s.rstN = true ∧ (s.input 3).claim = some (claimOf 1 7 x.2 0) ∧ s.runTime = x.1 := by decide +kernel

/-- Port 2 with `n` records queued, and with no TIME_CHANGE and no PEER_RESET enabled. -/
def muted (n : Nat) : State :=
  up.setPort 2 { up.port 2 with queue := { NoteQueue.reset with
    records := List.replicate n { seq := 0, lostBefore := 0, record := aFired }
    timeChangeOn := false, peerResetOn := false } }

theorem test_witness_OfferOfARecord :
    (∀ n ∈ [0, 15, 16], ((muted n).port 2).queue.records.length = n ∧
      ((muted n).port 2).queue.timeChangeOn = false ∧ ((muted n).port 2).queue.peerResetOn = false ∧
      ((muted n).port 2).engine.state = .idle) ∧
    (∃ x, endRecord .invalidated 0 = .timeChange x) ∧ (∃ x, aFired = .fired x) ∧
    ∃ x, Record.peerReset { port := 1, entries := 0, lines := 0, inputs := 0, runTime := 0 } = .peerReset x :=
  ⟨by decide +kernel, ⟨_, rfl⟩, ⟨_, rfl⟩, ⟨_, rfl⟩⟩

/-- Port 3 with one record, an engine that has its frame at the arbiter as `at'`, and `tx` on the line. -/
def sending (st : DeliveryState) (frame : FrameAt) (tx : Option TxFrame) : State :=
  up.setPort 3
    { queue := { NoteQueue.reset with records := [{ seq := 0, lostBefore := 0, record := aFired }], nextSeq := 1 }
      engine := { Engine.reset with state := st, frame := frame }
      link := { Link.reset with tx := tx } }

theorem test_witness_TransmitArbiter :
    (∀ st ∈ [DeliveryState.awaitAck, .backoff],
      ((sending st .queued none).link 3).tx = none ∧ ((sending st .queued none).link 3).responses = [] ∧
      ((sending st .queued none).port 3).engine.frame = .queued ∧
      ((sending st .queued none).port 3).queue.records = [{ seq := 0, lostBefore := 0, record := aFired }] ∧
      ((sending st .onWire (some (.note [1] true))).port 3).engine.state = st ∧
      ((sending st .onWire (some (.note [1] true))).link 3).tx = some (.note [1] true)) ∧
    (((sending .awaitAck .queued none).respond 3 1 0x32 (Reply.plain .ok)).link 3).responses =
      [{ payload := [1, 0x32, 0], resets := false }] ∧
    (∀ tx ∈ [TxFrame.note [1] false, .response [1] false, .response [1] true, .cut [1] false, .cut [1] true],
      ((sending .stalled .absent (some tx)).link 3).tx = some tx ∧ (sending .stalled .absent (some tx)).rstN = true) ∧
    ((up.link 3).tx = none ∧ (up.link 3).responses = [] ∧ (up.port 3).engine.frame ≠ .queued) := by
  refine ⟨?_, ?_, ?_, ?_⟩ <;> decide +kernel

/-- The state with one ACK payload handed to the engine of port 3. -/
def acked (payload : List Byte) (s : State) : State := s.setLink 3 { s.link 3 with acks := [payload] }

theorem test_witness_AckFrame :
    (∀ st ∈ [DeliveryState.awaitAck, .backoff, .stalled], ∀ payload ∈ [[(0 : Byte), 0, 0], [1, 0, 0], [0, 0], []],
      let s := acked payload (sending st .absent (some (.note [1] true)))
      s.rstN = true ∧ (s.link 3).acks = [payload] ∧ (s.port 3).engine.state = st ∧ st ≠ .idle ∧
        (s.port 3).queue.records = [{ seq := 0, lostBefore := 0, record := aFired }]) ∧
    (∀ now ∈ [8, 9],
      let s := acked [1, 0, 0] (withEngine 3 { Engine.reset with state := .stalled, stalledAt := some 9 }
        (atTime now (sending .stalled .absent none)))
      s.rstN = true ∧ (s.link 3).acks = [[1, 0, 0]] ∧ (s.port 3).engine.state = .stalled ∧
        (s.port 3).queue.records = [{ seq := 0, lostBefore := 0, record := aFired }] ∧
        ((s.port 3).engine.stalledAt = some s.runTime ↔ now = 9)) ∧
    [(0 : Byte), 0, 0] = (0 : Byte) :: toBytes 2 0 ∧
    ((acked [0, 0, 0] up).link 3).acks = [[0, 0, 0]] ∧ ((acked [0, 0, 0] up).port 3).queue.records = [] ∧
      ((acked [0, 0, 0] up).port 3).engine.state = .idle := by
  refine ⟨?_, ?_, ?_, ?_, ?_, ?_⟩ <;> decide +kernel

theorem test_witness_DeliveryTimers :
    ∀ x ∈ [(DeliveryState.awaitAck, 6, some 5, none), (.awaitAck, 7, some 5, none), (.backoff, 0, none, some 5)],
      ∀ now ∈ [4, 5], ∀ stall ∈ [StallAction.keep, .release],
        let e : Engine :=
          { Engine.reset with
            state := x.1, attempts := x.2.1, ackEnd := x.2.2.1, backoffEnd := x.2.2.2
            config := { DeliveryConfig.reset with stall := stall } }
        let s := atTime now (withEngine 3 e up)
        s.rstN = true ∧ (s.port 3).engine = e ∧ s.runTime = now ∧
          (e.attempts + 1 ≤ e.config.retryLimit ↔ x.2.1 ≠ 7) := by decide +kernel

theorem test_witness_SetPortConfig :
    ∀ x ∈ [[(0 : Byte), 15, 7, 1, 3], [1, 16, 7, 1, 3], [1, 15, 8, 1, 3], [1, 15, 7, 2, 3], [1, 15, 7, 1, 4],
        [1, 15, 7, 1, 3], [255, 0, 0, 0, 0]],
      Requested (asked 0 ([9, 0x30] ++ x) up) 0 9 0x30 x := by decide +kernel

theorem test_witness_FramesAndTheirCrc :
    ([0x01, 9] : List Byte).length = (2 : Byte).toNat ∧ (List.replicate 200 (7 : Byte)).length = (200 : Byte).toNat := by
  decide +kernel

theorem test_witness_CharactersReceived :
    (∀ rx ∈ [Receiver.hunt, .length 3, .body 1 [] 3, .body 1 [1] 3, .body 200 [1] 3],
      ((withRx 1 rx up).rstN = true ∧ ((withRx 1 rx up).link 1).rx = rx ∧ ((withRx 1 rx up).link 1).spaceSince = none ∧
        ((withRx 1 rx up).link 1).arriving = none) ∧
      ∀ now ∈ [7, 17], ((underWay 1 7 (withRx 1 rx (atTime now up))).link 1).arriving = some 7 ∧
        ((underWay 1 7 (withRx 1 rx up)).link 1).spaceSince ≠ none) ∧
    (up.link 1).rx = .waitMark ∧
    (∀ b ∈ [(1 : Byte), 200], 1 ≤ b.toNat ∧ b.toNat ≤ 200) ∧ (∀ b ∈ [(0 : Byte), 201, 255], b.toNat = 0 ∨ 200 < b.toNat) ∧
    ([1] : List Byte).length + 1 < (1 : Byte).toNat + 2 ∧
    (∀ t ∈ [7, 17], 7 ≤ t ∧ t ≤ 17 ∧ ((1 : Byte) = 0 → t = 7)) ∧ (∀ t ∈ [7], (0 : Byte) = 0 → t = 7) ∧
    ∀ t ∈ [6, 18], t < 7 ∨ 17 < t ∨ ((0 : Byte) = 0 ∧ t ≠ 7) := by decide +kernel

/-- The characters of a frame of TYPE `type` without payload, less its last one; the last one of a right CRC. -/
def ofType (type : Byte) : List Byte × Byte :=
  let tail := toBytes 2 (crc [1, type]).toNat
  ([type, tail.getD 0 0], tail.getD 1 0)

theorem test_witness_FrameComplete :
    (∀ type ∈ [(0x01 : Byte), 0x02, 0x00, 0x81], ∀ st ∈ [DeliveryState.stalled, .idle], ∀ n ∈ [0, 3, 4],
      let s := up.setPort 1
        { up.port 1 with engine := { Engine.reset with state := st }
                         link := { Link.reset with rx := .body 1 (ofType type).1 0, fifo := List.replicate n []
                                                   arriving := some 0, spaceSince := some 0 } }
      s.rstN = true ∧ (s.link 1).arriving = some 0 ∧ (s.link 1).rx = .body 1 (ofType type).1 0 ∧ (s.link 1).fifo.length = n ∧
        (s.port 1).engine.state = st ∧ (ofType type).1.length + 1 = (1 : Byte).toNat + 2) ∧
    (∀ type ∈ [(0x01 : Byte), 0x02, 0x00, 0x81],
      crcRight 1 ((ofType type).1 ++ [(ofType type).2]) = true ∧
      crcRight 1 ((ofType type).1 ++ [(ofType type).2 + 1]) = false ∧
      ((ofType type).1 ++ [(ofType type).2]).getD 0 0 = type) := by
  refine ⟨?_, ?_⟩ <;> decide +kernel

theorem test_witness_GapBreakAndMark :
    (∀ rx ∈ [Receiver.length 3, .body 1 [] 3, .hunt, .waitMark], ∀ now ∈ [1003, 1004],
      let s := atTime now (withRx 1 rx up)
      s.rstN = true ∧ (s.link 1).rx = rx ∧ (s.link 1).arriving = none ∧ (s.link 1).spaceSince = none ∧ s.runTime = now ∧
        ((underWay 1 3 s).link 1).arriving ≠ none ∧ ((underWay 1 3 s).link 1).rx = rx) ∧
    (∀ now ∈ [2002, 2003], ((underWay 1 3 (atTime now up)).link 1).spaceSince = some 3 ∧ (atTime now up).runTime = now) ∧
    (3 + 1000 < 1004 ∧ 1003 ≤ 3 + 1000 ∧ 3 + 2000 ≤ 2003 ∧ 2002 < 3 + 2000) := by decide +kernel

theorem test_witness_GapBreakAndMark_waitMark : (up.link 1).ok ∧ (up.link 1).rx = .waitMark :=
  ⟨⟨fun _ => ⟨rfl, rfl⟩, trivial, by decide +kernel, by decide +kernel, by decide +kernel, by decide +kernel⟩, rfl⟩

theorem test_witness_GetPortStatusAndPortReset :
    Requested (asked 0 [9, 0x31] up) 0 9 0x31 [] ∧ Requested (asked 0 [9, 0x34] up) 0 9 0x34 [] ∧
    (let s := (withQueue 0 [{ seq := 65535, lostBefore := 3, record := aFired }] 0 (asked 0 [9, 0x31] up))
     Requested s 0 9 0x31 [] ∧ (s.port 0).queue.records ≠ []) := by decide +kernel

theorem test_witness_ClearFaultsAndGetInfo :
    ∀ code ∈ [(0x32 : Byte), 0x33], ∀ args ∈ [[], [(0 : Byte)]],
      Requested (asked 0 ([9, code] ++ args) up) 0 9 code args := by decide +kernel

theorem test_witness_PortResetEffects :
    (CountsOk up ∧ up.holds 1 = false) ∧ (CountsOk nineHeld ∧ nineHeld.holds 0 = false) ∧
    ((leased 1 9 up).holds 1 = true ∧ (leased 1 9 up).holds 2 = false) := by
  unfold CountsOk
  refine ⟨⟨?_, ?_⟩, ⟨?_, ?_⟩, ?_, ?_⟩ <;> decide +kernel

/-! The invariants split on data, so their decision procedures are spelled out. -/

def lineDecidable : (l : LineState) → Decidable l.ok
  | ⟨none, level, pulse⟩ => inferInstanceAs (Decidable (level = .low ∧ pulse = none))
  | ⟨some c, level, pulse⟩ => inferInstanceAs (Decidable (pulse.isSome = true → level = flipLevel c.idle))

def engineDecidable (e : Engine) (empty : Bool) : Decidable (e.ok empty) :=
  match e with
  | ⟨.idle, _, _, _, _, _, _, _, _, _⟩ =>
    inferInstanceAs (Decidable ((_ ∧ _ ∧ _ ∧ _) ∧ (_ ↔ _ ≠ _) ∧ _ ∧ _ ∧ _ ∧ _ ∧ _))
  | ⟨.awaitAck, _, _, _, _, _, _, _, _, _⟩ =>
    inferInstanceAs (Decidable ((_ ∧ _ ∧ _ ∧ _) ∧ (_ ↔ _ ≠ _) ∧ _ ∧ _ ∧ (_ ↔ _ ≠ _) ∧ _))
  | ⟨.backoff, _, _, _, _, _, _, _, _, _⟩ =>
    inferInstanceAs (Decidable ((_ ∧ _ ∧ _ ∧ _) ∧ (_ ↔ _ ≠ _) ∧ _ ∧ _ ∧ (_ ↔ _ ≠ _) ∧ _))
  | ⟨.stalled, _, _, _, _, _, _, _, _, _⟩ =>
    inferInstanceAs (Decidable ((_ ∧ _ ∧ _ ∧ _) ∧ (_ ↔ _ ≠ _) ∧ _ ∧ _ ∧ _ ∧ _ ∧ _))

def receiverDecidable : (r : Receiver) → Decidable r.ok
  | .waitMark => inferInstanceAs (Decidable True)
  | .hunt => inferInstanceAs (Decidable True)
  | .length _ => inferInstanceAs (Decidable True)
  | .body _ _ _ => inferInstanceAs (Decidable (_ ∧ _ ∧ _))

def entryDecidable : (e : Entry) → Decidable e.ok
  | ⟨_, _, .once _, _, _, _, _⟩ => inferInstanceAs (Decidable (_ ∨ _))
  | ⟨_, _, .periodic _ _ _ _, _, _, _, _⟩ => inferInstanceAs (Decidable ((_ ∨ _) ∧ _ ∧ _))
  | ⟨_, _, .pattern _ _ _ _, _, _, _, _⟩ => inferInstanceAs (Decidable (_ ≠ _ ∧ (_ ≠ _ ↔ _) ∧ _ ∧ _))
  | ⟨_, _, .afterCapture _ _ _ _, _, _, _, _⟩ => inferInstanceAs (Decidable (_ ≠ _ ∧ (_ ≠ _ ↔ _)))

def slotDecidable (s : State) (id : EntryId) : Decidable (SlotOk s id) := by
  unfold SlotOk
  exact match (s.slot id).entry with
    | none => inferInstanceAs (Decidable (_ ∧ _))
    | some e => let _ := entryDecidable e; inferInstanceAs (Decidable (_ ∧ _ ∧ _))

/-- The invariants' hypotheses are met away from the reset values, and such a state has a next one. -/
theorem test_witness_AuthorityInvariant :
    let s : State := { leased 1 9 up with waiters := (Vector.replicate 4 false).set 2 true, pending := [.leaseExpiry] }
    AuthorityOk s ∧ ∃ t, step s = .next t :=
  ⟨show ((Vector.replicate 4 false).set 2 true)[(1 : Port)] = false by decide +kernel, _, rfl⟩

theorem test_witness_CivilTimeInvariant :
    let s : State :=
      { slewing 1 1999 (valid noon up) with
        refclkCycles := 9, step := some { offset := -1, requester := 0, reached := none } }
    CorrectionsOk s ∧ TimeOk s ∧ ∃ t, step s = .next t := by
  refine ⟨⟨by decide +kernel, ?_⟩, ⟨by decide +kernel, by decide +kernel, ?_⟩, _, rfl⟩
  · rintro w ⟨rfl⟩
    decide +kernel
  · rintro c ⟨rfl⟩
    refine ⟨by decide +kernel, ?_⟩
    rintro x ⟨rfl⟩
    unfold PendingStep.ok
    decide +kernel

theorem test_witness_PinsInvariant :
    let s : State :=
      { atTime 5 (owned 7 0 .low .high (some { endAt := 5, source := .direct })
          (watched 3 (claimOf 0 65535 none 65535) up)) with pending := [.pulseEnd 7] }
    PinsOk s ∧ ∃ t, step s = .next t := by
  refine ⟨⟨of_decide_eq_true (inst := let _ := lineDecidable; inferInstance) (by decide +kernel), ?_,
    by decide +kernel⟩, _, rfl⟩
  intro i c h
  revert i c
  decide +kernel

theorem test_witness_PortsInvariant :
    let s : State := { sending .awaitAck .queued none with pending := [.transmitStart 3] }
    PortsOk s ∧ ∃ t, step s = .next t := by
  refine ⟨?_, _, rfl⟩
  unfold PortsOk PortState.ok NoteQueue.ok Link.ok
  exact of_decide_eq_true (inst := let _ := engineDecidable; let _ := receiverDecidable; inferInstance) (by decide +kernel)

theorem test_witness_ScheduleInvariant :
    let s : State :=
      { atTime 5 (listedMono { id := 7, due := 5, late := false } (placed 7 1 (plain 1 .armed (.once 5) 1) up)) with
        pending := [.monoFiring] }
    ListsOk s ∧ ValidityOk s ∧ CountsOk s ∧ ∃ t, step s = .next t := by
  refine ⟨⟨?_, by decide +kernel, by decide +kernel⟩, show _ = [] by decide +kernel, ?_, _, rfl⟩
  · exact of_decide_eq_true (inst := let _ := slotDecidable; inferInstance) (by decide +kernel)
  · unfold CountsOk
    decide +kernel
end Sys2Proof.Tests
end

section
/-! SUPPORT. The calendar: records and civil counts determine each other, and an advance adds its amount to the count
(R7 to R13).
-/

namespace Sys2Proof.Machine

/-! ### A place among consecutive lengths

The search for a year and the search for a month are one search over lengths that follow each other. -/

/-- The search that `yearOfDay` and `monthOfDay` share. -/
def locate (len : Nat → Nat) : Nat → Nat → Nat → Nat × Nat
  | 0, m, d => (m, d)
  | fuel + 1, m, d => if d < len m then (m, d) else locate len fuel (m + 1) (d - len m)

theorem yearOfDay_eq_locate (fuel y d : Nat) : yearOfDay fuel y d = locate yearLength fuel y d := by
  induction fuel generalizing y d with
  | zero => rfl
  | succ fuel ih => simp only [yearOfDay, locate, ih]

theorem monthOfDay_eq_locate (y fuel m d : Nat) : monthOfDay y fuel m d = locate (monthLength y) fuel m d := by
  induction fuel generalizing m d with
  | zero => rfl
  | succ fuel ih => simp only [monthOfDay, locate, ih]

theorem daysBeforeYear_eq_sum (n : Nat) : daysBeforeYear n = ∑ i ∈ Finset.range n, yearLength (2000 + i) := by
  induction n with
  | zero => rfl
  | succ n ih => rw [daysBeforeYear, ih, Finset.sum_range_succ]

theorem daysOfMonths_eq_sum (y n : Nat) : daysOfMonths y n = ∑ i ∈ Finset.range n, monthLength y (1 + i) := by
  induction n with
  | zero => rfl
  | succ n ih => rw [daysOfMonths, ih, Finset.sum_range_succ, Nat.add_comm 1 n]

/-- A place within the `i`-th length is found there. -/
theorem locate_sum_add (len : Nat → Nat) {fuel i m d : Nat} (hi : i < fuel) (hd : d < len (m + i)) :
    locate len fuel m (∑ k ∈ Finset.range i, len (m + k) + d) = (m + i, d) := by
  induction fuel generalizing i m with
  | zero => omega
  | succ fuel ih =>
    cases i with
    | zero =>
      rw [Nat.add_zero] at hd
      simp [locate, hd]
    | succ i =>
      have hs : ∑ k ∈ Finset.range (i + 1), len (m + k) = len m + ∑ k ∈ Finset.range i, len (m + 1 + k) := by
        rw [Finset.sum_range_succ', Nat.add_comm]
        simp only [Nat.add_zero, Nat.add_assoc, Nat.add_comm 1]
      have hm : m + (i + 1) = m + 1 + i := by omega
      rw [hm] at hd ⊢
      rw [locate, hs, if_neg (by omega), Nat.add_assoc, Nat.add_sub_cancel_left]
      exact ih (by omega) hd

/-- Every number below the sum of the lengths lies within one of them. -/
theorem exists_sum_add_of_lt (len : Nat → Nat) {n d : Nat} (h : d < ∑ k ∈ Finset.range n, len k) :
    ∃ i e, i < n ∧ e < len i ∧ d = ∑ k ∈ Finset.range i, len k + e := by
  induction n with
  | zero => simp at h
  | succ n ih =>
    rw [Finset.sum_range_succ] at h
    by_cases hd : d < ∑ k ∈ Finset.range n, len k
    · obtain ⟨i, e, hi, he, rfl⟩ := ih hd
      exact ⟨i, e, by omega, he, rfl⟩
    · exact ⟨n, d - ∑ k ∈ Finset.range n, len k, by omega, by omega, by omega⟩

/-! ### Years and months -/

theorem isLeap_iff (y : Nat) : isLeap y = true ↔ (y % 4 = 0 ∧ y % 100 ≠ 0) ∨ (y % 100 = 0 ∧ y % 400 = 0) := by
  simp only [isLeap, Bool.and_eq_true, Bool.or_eq_true, beq_iff_eq, bne_iff_ne, ne_eq]
  omega

theorem daysOfMonths_twelve (y : Nat) : daysOfMonths y 12 = yearLength y := by
  cases h : isLeap y <;> simp [daysOfMonths, monthLength, yearLength, h]

theorem monthLength_pos {m : Nat} (y : Nat) (h1 : 1 ≤ m) (h12 : m ≤ 12) : 28 ≤ monthLength y m := by
  unfold monthLength
  split_ifs <;> omega

theorem daysBeforeYear_mono : Monotone daysBeforeYear :=
  monotone_nat_of_le_succ fun n => Nat.le_add_right (daysBeforeYear n) _

theorem daysOfMonths_mono (y : Nat) : Monotone (daysOfMonths y) :=
  monotone_nat_of_le_succ fun n => Nat.le_add_right (daysOfMonths y n) _

theorem daysBeforeYear_twoHundred : daysBeforeYear 200 = 73049 := by
  decide +kernel

/-- The months before `m` and the days of `m`. -/
theorem daysOfMonths_pred_add {y m : Nat} (h1 : 1 ≤ m) :
    daysOfMonths y (m - 1) + monthLength y m = daysOfMonths y m := by
  obtain ⟨k, rfl⟩ : ∃ k, m = k + 1 := ⟨m - 1, by omega⟩
  rfl

theorem daysOfMonths_add_lt {y m d : Nat} (h1 : 1 ≤ m) (h12 : m ≤ 12) (hd : d < monthLength y m) :
    daysOfMonths y (m - 1) + d < yearLength y := by
  have := daysOfMonths_pred_add (y := y) h1
  have := daysOfMonths_mono y h12
  have := daysOfMonths_twelve y
  omega

theorem yearOfDay_daysBeforeYear_add {i d : Nat} (hi : i < 200) (hd : d < yearLength (2000 + i)) :
    yearOfDay 200 2000 (daysBeforeYear i + d) = (2000 + i, d) := by
  rw [yearOfDay_eq_locate, daysBeforeYear_eq_sum, locate_sum_add yearLength hi hd]

theorem monthOfDay_daysOfMonths_add {y m d : Nat} (h1 : 1 ≤ m) (h12 : m ≤ 12) (hd : d < monthLength y m) :
    monthOfDay y 12 1 (daysOfMonths y (m - 1) + d) = (m, d) := by
  obtain ⟨k, rfl⟩ : ∃ k, m = 1 + k := ⟨m - 1, by omega⟩
  rw [monthOfDay_eq_locate, daysOfMonths_eq_sum, Nat.add_sub_cancel_left,
    locate_sum_add (monthLength y) (by omega) hd]

theorem exists_year_of_day {n : Nat} (h : n < 73049) :
    ∃ i d, i < 200 ∧ d < yearLength (2000 + i) ∧ n = daysBeforeYear i + d := by
  rw [← daysBeforeYear_twoHundred, daysBeforeYear_eq_sum] at h
  obtain ⟨i, d, hi, hd, rfl⟩ := exists_sum_add_of_lt _ h
  exact ⟨i, d, hi, hd, by rw [daysBeforeYear_eq_sum]⟩

theorem exists_month_of_day {y n : Nat} (h : n < yearLength y) :
    ∃ m d, 1 ≤ m ∧ m ≤ 12 ∧ d < monthLength y m ∧ n = daysOfMonths y (m - 1) + d := by
  rw [← daysOfMonths_twelve, daysOfMonths_eq_sum] at h
  obtain ⟨i, d, hi, hd, rfl⟩ := exists_sum_add_of_lt _ h
  exact ⟨1 + i, d, by omega, by omega, hd, by rw [daysOfMonths_eq_sum, Nat.add_sub_cancel_left]⟩

/-! ### Records on the calendar, inside the civil range or past it -/

/-- Every field of the record is one its calendar has; the year is 2000 or any later one, so that the record of the
calendar end is on the calendar, but not well formed. -/
structure Civil.OnCalendar (c : Civil) : Prop where
  year_ge   : 2000 ≤ c.year
  month_ge  : 1 ≤ c.month
  month_le  : c.month ≤ 12
  day_ge    : 1 ≤ c.day
  day_le    : c.day ≤ monthLength c.year c.month
  hour_le   : c.hour ≤ 23
  minute_le : c.minute ≤ 59
  second_le : c.second ≤ 59
  micro_le  : c.micro ≤ 999999

theorem Civil.wellFormed_iff (c : Civil) : c.wellFormed = true ↔ c.OnCalendar ∧ c.year ≤ 2199 := by
  simp only [Civil.wellFormed, Bool.and_eq_true, decide_eq_true_eq, and_assoc]
  constructor
  · rintro ⟨hy, hy', hm, hm', hd, hd', hh, hmi, hs, hu⟩
    exact ⟨⟨hy, hm, hm', hd, hd', hh, hmi, hs, hu⟩, hy'⟩
  · rintro ⟨⟨hy, hm, hm', hd, hd', hh, hmi, hs, hu⟩, hy'⟩
    exact ⟨hy, hy', hm, hm', hd, hd', hh, hmi, hs, hu⟩

theorem Civil.OnCalendar.timeOfDay_lt {c : Civil} (h : c.OnCalendar) : c.timeOfDay < dayMicros := by
  have := h.hour_le
  have := h.minute_le
  have := h.second_le
  have := h.micro_le
  simp only [Civil.timeOfDay, dayMicros]
  omega

theorem Civil.OnCalendar.withMicro {c : Civil} {us : Nat} (h : c.OnCalendar) (hu : us ≤ 999999) :
    ({ c with micro := us } : Civil).OnCalendar :=
  ⟨h.year_ge, h.month_ge, h.month_le, h.day_ge, h.day_le, h.hour_le, h.minute_le, h.second_le, hu⟩

/-- The day number of a date on the calendar, by its year. -/
theorem Civil.OnCalendar.dayNumber_lt {c : Civil} (h : c.OnCalendar) :
    c.dayNumber < daysBeforeYear (c.year - 2000 + 1) := by
  have hy : 2000 + (c.year - 2000) = c.year := by have := h.year_ge; omega
  have hd := h.day_le
  have hd1 := h.day_ge
  have := daysOfMonths_add_lt (y := c.year) (d := c.day - 1) h.month_ge h.month_le (by omega)
  rw [Civil.dayNumber, daysBeforeYear, hy]
  omega

/-- A record on the calendar lies in the civil range exactly when its count is below that of the calendar end. -/
theorem Civil.OnCalendar.count_lt_iff {c : Civil} (h : c.OnCalendar) :
    c.count < calendarEndCount ↔ c.year ≤ 2199 := by
  have ht := h.timeOfDay_lt
  simp only [Civil.count, dayMicros, calendarEndCount] at *
  constructor
  · intro hlt
    by_contra hy
    have : daysBeforeYear 200 ≤ daysBeforeYear (c.year - 2000) := daysBeforeYear_mono (by omega)
    rw [daysBeforeYear_twoHundred] at this
    have : daysBeforeYear (c.year - 2000) ≤ c.dayNumber := by rw [Civil.dayNumber]; omega
    omega
  · intro hy
    have : daysBeforeYear (c.year - 2000 + 1) ≤ daysBeforeYear 200 := daysBeforeYear_mono (by omega)
    rw [daysBeforeYear_twoHundred] at this
    have := h.dayNumber_lt
    omega

theorem Civil.wellFormed_iff_count_lt {c : Civil} (h : c.OnCalendar) :
    c.wellFormed = true ↔ c.count < calendarEndCount := by
  rw [Civil.wellFormed_iff, h.count_lt_iff]
  exact and_iff_right h

/-! ### Records of counts (R8) -/

/-- The record of a day of month `m` of year `2000 + i`, at a time of day. -/
theorem Civil.ofCount_eq {i m d t : Nat} (hi : i < 200) (h1 : 1 ≤ m) (h12 : m ≤ 12)
    (hd : d < monthLength (2000 + i) m) (ht : t < dayMicros) :
    Civil.ofCount ((daysBeforeYear i + (daysOfMonths (2000 + i) (m - 1) + d)) * dayMicros + t) =
      { year := 2000 + i, month := m, day := d + 1, hour := t / 3600000000, minute := t / 60000000 % 60,
        second := t / 1000000 % 60, micro := t % 1000000 } := by
  have hday := daysOfMonths_add_lt h1 h12 hd
  have hdiv : ∀ n : Nat, (n * dayMicros + t) / dayMicros = n := by
    intro n
    rw [dayMicros] at *
    omega
  have hmod : ∀ n : Nat, (n * dayMicros + t) % dayMicros = t := by
    intro n
    rw [dayMicros] at *
    omega
  simp only [Civil.ofCount, hdiv, hmod, yearOfDay_daysBeforeYear_add hi hday, monthOfDay_daysOfMonths_add h1 h12 hd]

/-- A record on the calendar within the range is the record of its count. -/
theorem Civil.ofCount_count {c : Civil} (h : c.wellFormed = true) : Civil.ofCount c.count = c := by
  obtain ⟨hc, hy⟩ := (Civil.wellFormed_iff c).1 h
  have hy0 := hc.year_ge
  have hd0 := hc.day_ge
  have hd := hc.day_le
  have hyear : 2000 + (c.year - 2000) = c.year := by omega
  have key := Civil.ofCount_eq (i := c.year - 2000) (d := c.day - 1) (by omega) hc.month_ge hc.month_le
    (by rw [hyear]; omega) hc.timeOfDay_lt
  rw [hyear] at key
  have hcount : c.count = (daysBeforeYear (c.year - 2000) + (daysOfMonths c.year (c.month - 1) + (c.day - 1))) *
      dayMicros + c.timeOfDay := by rw [Civil.count, Civil.dayNumber, Nat.add_assoc]
  rw [hcount, key]
  have := hc.hour_le
  have := hc.minute_le
  have := hc.second_le
  have := hc.micro_le
  obtain ⟨y, mo, d, h, mi, se, us⟩ := c
  simp only [Civil.timeOfDay, Civil.mk.injEq] at *
  refine ⟨trivial, trivial, ?_, ?_, ?_, ?_, ?_⟩ <;> omega

/-- The record of a count in the civil range is well formed, and has that count. -/
theorem Civil.ofCount_spec {n : Nat} (h : n < calendarEndCount) :
    (Civil.ofCount n).wellFormed = true ∧ (Civil.ofCount n).count = n := by
  have ht : n % dayMicros < dayMicros := Nat.mod_lt _ (by decide)
  have hn : n / dayMicros < 73049 := by
    rw [dayMicros, calendarEndCount] at *
    omega
  obtain ⟨i, d, hi, hd, hyear⟩ := exists_year_of_day hn
  obtain ⟨m, e, h1, h12, he, rfl⟩ := exists_month_of_day hd
  have hsplit : n = (daysBeforeYear i + (daysOfMonths (2000 + i) (m - 1) + e)) * dayMicros + n % dayMicros := by
    rw [← hyear, Nat.mul_comm, Nat.div_add_mod]
  have key := Civil.ofCount_eq hi h1 h12 he ht
  rw [← hsplit] at key
  have hcount : (Civil.ofCount n).count = n := by
    rw [key]
    simp only [Civil.count, Civil.dayNumber, Civil.timeOfDay, Nat.add_sub_cancel_left, Nat.add_sub_cancel, Nat.add_assoc]
    rw [dayMicros] at *
    omega
  refine ⟨?_, hcount⟩
  rw [Civil.wellFormed_iff_count_lt, hcount]
  · exact h
  · rw [key]
    simp only [dayMicros] at ht ⊢
    constructor <;> simp only <;> omega

/-! ### Advances (R10 to R13) -/

/-- The date after a date on the calendar. -/
theorem Civil.dayNumber_carryDate {c : Civil} (hy : 2000 ≤ c.year) (h1 : 1 ≤ c.month) (h12 : c.month ≤ 12)
    (hd1 : 1 ≤ c.day) (hd : c.day ≤ monthLength c.year c.month) :
    ({ c with day := c.day + 1 } : Civil).carryDate.dayNumber = c.dayNumber + 1 := by
  have hmonth := daysOfMonths_pred_add (y := c.year) h1
  unfold Civil.carryDate
  simp only
  split_ifs with hday hmon
  · simp only [Civil.dayNumber]
    omega
  · simp only [Civil.dayNumber, Nat.add_sub_cancel]
    omega
  · have hlast : c.month = 12 := by omega
    have hnext : daysBeforeYear (c.year + 1 - 2000) = daysBeforeYear (c.year - 2000) + yearLength c.year := by
      have e1 : c.year + 1 - 2000 = c.year - 2000 + 1 := by omega
      have e2 : 2000 + (c.year - 2000) = c.year := by omega
      rw [e1, daysBeforeYear, e2]
    have hfull := daysOfMonths_twelve c.year
    rw [hlast] at hmonth hday hd
    have hnone : daysOfMonths (c.year + 1) (1 - 1) = 0 := rfl
    simp only [Civil.dayNumber, hnext, hlast, hnone]
    omega

/-- The time of day is carried along. -/
theorem Civil.carryDate_timeOfDay (c : Civil) : c.carryDate.timeOfDay = c.timeOfDay := by
  unfold Civil.carryDate
  split_ifs <;> rfl

theorem Civil.carryDate_onCalendar {c : Civil} (h : c.OnCalendar) :
    ({ c with day := c.day + 1 } : Civil).carryDate.OnCalendar := by
  obtain ⟨hy, h1, h12, hd1, hd, hh, hm, hs, hu⟩ := h
  unfold Civil.carryDate
  simp only
  split_ifs with hday hmon
  · exact ⟨hy, h1, h12, by simp, hday, hh, hm, hs, hu⟩
  · have := monthLength_pos c.year (m := c.month + 1) (by omega) (by omega)
    exact ⟨hy, by simp, by simp; omega, by simp, by simp; omega, hh, hm, hs, hu⟩
  · have := monthLength_pos (c.year + 1) (m := 1) (by omega) (by omega)
    exact ⟨by simp; omega, by simp, by simp, by simp, by simp; omega, hh, hm, hs, hu⟩

/-- One second past a record on the calendar. -/
theorem Civil.nextSecond_spec {c : Civil} (h : c.OnCalendar) :
    c.nextSecond.OnCalendar ∧ c.nextSecond.count = c.count + 1000000 := by
  have hc := h
  obtain ⟨hy, h1, h12, hd1, hd, hh, hm, hs, hu⟩ := h
  unfold Civil.nextSecond
  split_ifs with hsec hmin hhour
  · refine ⟨⟨hy, h1, h12, hd1, hd, hh, hm, by simp; omega, hu⟩, ?_⟩
    simp only [Civil.count, Civil.dayNumber, Civil.timeOfDay]
    omega
  · refine ⟨⟨hy, h1, h12, hd1, hd, hh, by simp; omega, by simp, hu⟩, ?_⟩
    simp only [Civil.count, Civil.dayNumber, Civil.timeOfDay]
    omega
  · refine ⟨⟨hy, h1, h12, hd1, hd, by simp; omega, by simp, by simp, hu⟩, ?_⟩
    simp only [Civil.count, Civil.dayNumber, Civil.timeOfDay]
    omega
  · have hmid : ({ c with second := 0, minute := 0, hour := 0 } : Civil).OnCalendar :=
      ⟨hy, h1, h12, hd1, hd, by simp, by simp, by simp, hu⟩
    refine ⟨Civil.carryDate_onCalendar hmid, ?_⟩
    have hday := Civil.dayNumber_carryDate hmid.year_ge hmid.month_ge hmid.month_le hmid.day_ge hmid.day_le
    have hdate : ({ c with second := 0, minute := 0, hour := 0 } : Civil).dayNumber = c.dayNumber := rfl
    rw [Civil.count, hday, Civil.carryDate_timeOfDay]
    simp only [Civil.count, hdate, Civil.timeOfDay, dayMicros]
    omega

/-- An advance of less than a second, past the end of the civil range too. -/
theorem Civil.advance_spec {c : Civil} {n : Nat} (h : c.OnCalendar) (hn : n < 1000000) :
    (c.advance n).OnCalendar ∧ (c.advance n).count = c.count + n := by
  have hu := h.micro_le
  unfold Civil.advance Civil.crossesSecond
  split_ifs with hcross
  · rw [decide_eq_true_eq] at hcross
    obtain ⟨hcal, hcount⟩ := Civil.nextSecond_spec (h.withMicro (us := c.micro + n - 1000000) (by omega))
    refine ⟨hcal, ?_⟩
    rw [hcount]
    simp only [Civil.count, Civil.dayNumber, Civil.timeOfDay]
    omega
  · rw [decide_eq_true_eq] at hcross
    refine ⟨h.withMicro (by omega), ?_⟩
    simp only [Civil.count, Civil.dayNumber, Civil.timeOfDay]
    omega

theorem Civil.advance_wellFormed {c : Civil} {n : Nat} (h : c.wellFormed = true) (hn : n < 1000000)
    (hy : (c.advance n).year ≤ 2199) : (c.advance n).wellFormed = true :=
  (Civil.wellFormed_iff _).2 ⟨(Civil.advance_spec ((Civil.wellFormed_iff c).1 h).1 hn).1, hy⟩

/-- An advance that reaches no whole second leaves the next boundary where it was (R28). -/
theorem Civil.targetBoundary_advance {c : Civil} {n : Nat} (h : c.crossesSecond n = false) :
    (c.advance n).targetBoundary = c.targetBoundary := by
  simp [Civil.advance, h, Civil.targetBoundary, Civil.wholeSecond]

theorem Civil.nextSecond_wholeSecond (c : Civil) : c.nextSecond.wholeSecond = c.wholeSecond.nextSecond := by
  simp only [Civil.nextSecond, Civil.carryDate, apply_ite Civil.wholeSecond]
  rfl

/-- The whole second that an advance reaches is the boundary that was next before it (R12, R28). -/
theorem Civil.wholeSecond_advance {c : Civil} {n : Nat} (h : c.crossesSecond n = true) :
    (c.advance n).wholeSecond = c.targetBoundary := by
  have hsame : ∀ us : Nat, ({ c with micro := us } : Civil).wholeSecond = c.wholeSecond := fun _ => rfl
  rw [Civil.advance, if_pos h, Civil.nextSecond_wholeSecond, hsame, Civil.targetBoundary]

/-! ### The statements -/

/-- Settles O7: a record is found again from its count because year, month and time of day are places among consecutive
lengths; an advance adds its amount to the count of every record on the calendar. -/
theorem civilCounts : Obligations.CivilCounts := by
  refine ⟨⟨fun c h => ⟨?_, Civil.ofCount_count h⟩, fun n h => Civil.ofCount_spec h⟩, fun c n h hn => ?_⟩
  · obtain ⟨hc, hy⟩ := (Civil.wellFormed_iff c).1 h
    exact hc.count_lt_iff.2 hy
  · obtain ⟨hcal, hcount⟩ := Civil.advance_spec (n := n) ((Civil.wellFormed_iff c).1 h).1 (by omega)
    have hwf := Civil.wellFormed_iff_count_lt hcal
    have hyear := hcal.count_lt_iff
    rw [hcount, calendarEndCount] at hwf hyear
    exact ⟨fun hlt => ⟨hwf.2 hlt, hcount⟩, by omega⟩

/-- A pattern's weekday field is compared with the weekday derived from the date (R92). -/
theorem Pattern.weekday_of_matchesAt {pat : Pattern} {c : Civil} {w : Nat} (hw : pat.weekday = some w)
    (h : pat.matchesAt c = true) : c.weekday = w := by
  simp only [Pattern.matchesAt, Pattern.dateOk, Bool.and_eq_true, and_assoc, hw] at h
  obtain ⟨-, -, hweekday, -⟩ := h
  exact (eq_of_beq hweekday).symm

/-- Settles O5: the calendar by computation and by the lemmas on years and months, the next date by
`Civil.dayNumber_carryDate`. -/
theorem calendarAndWeekday : Obligations.CalendarAndWeekday := by
  refine ⟨⟨isLeap_iff, by decide, by decide, by decide +kernel, ?_, ?_, ?_, ?_, by decide, fun _ => rfl,
    daysBeforeYear_twoHundred⟩, fun _ => rfl, ?_, ?_, fun _ _ _ => Pattern.weekday_of_matchesAt⟩
  · intro y h
    exact ⟨by simp [monthLength, h], by simp [daysOfMonths_twelve, yearLength, h]⟩
  · intro y h
    exact ⟨by simp [monthLength, h], by simp [daysOfMonths_twelve, yearLength, h]⟩
  · intro y m hm
    simp only [List.mem_cons, List.not_mem_nil, or_false] at hm
    rcases hm with rfl | rfl | rfl | rfl | rfl | rfl | rfl <;> rfl
  · intro y m hm
    simp only [List.mem_cons, List.not_mem_nil, or_false] at hm
    rcases hm with rfl | rfl | rfl | rfl <;> rfl
  · intro c hy hm hd
    have h0 : c.dayNumber = 0 := by simp [Civil.dayNumber, hy, hm, hd, daysBeforeYear, daysOfMonths]
    exact ⟨h0, by rw [Civil.weekday, h0]; rfl⟩
  · intro c h
    obtain ⟨hc, -⟩ := (Civil.wellFormed_iff c).1 h
    exact Civil.dayNumber_carryDate hc.year_ge hc.month_ge hc.month_le hc.day_ge hc.day_le

end Sys2Proof.Machine
end

section
/-! SUPPORT. A port reset, block by block (R23, R65, R127, R143, R158, R159, R174, R191).
-/

namespace Sys2Proof.Machine

/-- A fold whose every step rewrites one position of a block rewrites the positions it names. -/
theorem State.foldl_pointwise {ι α : Type} [DecidableEq ι] {f : State → ι → State} {get : State → ι → α} {g : α → α}
    (h : ∀ s k l, get (f s k) l = if l = k then g (get s k) else get s l) (ks : List ι) (hn : ks.Nodup) (s : State)
    (l : ι) : get (ks.foldl f s) l = if l ∈ ks then g (get s l) else get s l := by
  induction ks generalizing s with
  | nil => simp
  | cons k ks ih =>
    obtain ⟨hk, hn⟩ := List.nodup_cons.1 hn
    rw [List.foldl_cons, ih hn, h]
    by_cases hl : l = k
    · subst hl
      simp [hk]
    · simp [hl]

/-! ### The entries of the port (R65) -/

theorem State.mem_entriesOf (s : State) (p : Port) (id : EntryId) :
    id ∈ s.entriesOf p ↔ ∃ e : Entry, (s.slot id).entry = some e ∧ e.owner = p := by
  simp [State.entriesOf, allIds, Option.any_eq_true]

theorem State.nodup_entriesOf (s : State) (p : Port) : (s.entriesOf p).Nodup :=
  (List.nodup_finRange 64).filter _

theorem State.slot_freeEntry (s : State) (id j : EntryId) :
    (s.freeEntry id).slot j = if j = id then { gen := (s.slot id).gen, entry := none } else s.slot j := by
  unfold State.freeEntry
  split
  · next h =>
    by_cases hj : j = id
    · subst hj
      rw [if_pos rfl, ← h]
    · rw [if_neg hj]
  · by_cases hj : j = id
    · subst hj
      simp
    · simp [hj]

theorem State.heldBy_setHeld (s : State) (p q : Port) (n : Nat) :
    (s.setHeld p n).heldBy q = if q = p then n else s.heldBy q := by
  rw [State.setHeld, State.heldBy_setCounts, Fin.getElem_fin, Vector.getElem_set]
  simp only [Fin.ext_iff, eq_comm (a := p.val)]
  rfl

/-- An entry that is freed leaves its list, and its owner holds one entry less (R45). -/
theorem State.freeEntry_of_entry {s : State} {id : EntryId} {e : Entry} (h : (s.slot id).entry = some e) :
    (s.freeEntry id).mono = s.mono.filter (fun x => x.id != id) ∧
    (s.freeEntry id).civils = s.civils.filter (fun x => x.id != id) ∧
    (∀ q : Port, (s.freeEntry id).heldBy q = if q = e.owner then s.heldBy q - 1 else s.heldBy q) ∧
    (s.freeEntry id).poolUse = poolUseOf (s.freeEntry id).held := by
  simp only [State.freeEntry, h]
  refine ⟨rfl, rfl, fun q => ?_, rfl⟩
  rw [State.heldBy_setHeld]
  by_cases hq : q = e.owner
  · subst hq
    simp
  · simp [hq]

/-- Entries of one port that are freed one after the other. -/
theorem State.foldl_freeEntry {p : Port} (ids : List EntryId) (hn : ids.Nodup) (s : State)
    (h : ∀ id ∈ ids, ∃ e : Entry, (s.slot id).entry = some e ∧ e.owner = p) :
    (ids.foldl State.freeEntry s).mono = s.mono.filter (fun x => !decide (x.id ∈ ids)) ∧
    (ids.foldl State.freeEntry s).civils = s.civils.filter (fun x => !decide (x.id ∈ ids)) ∧
    (ids.foldl State.freeEntry s).heldBy p = s.heldBy p - ids.length ∧
    (∀ q : Port, q ≠ p → (ids.foldl State.freeEntry s).heldBy q = s.heldBy q) ∧
    (s.poolUse = poolUseOf s.held →
      (ids.foldl State.freeEntry s).poolUse = poolUseOf (ids.foldl State.freeEntry s).held) := by
  induction ids generalizing s with
  | nil => simp
  | cons id ids ih =>
    obtain ⟨hid, hn⟩ := List.nodup_cons.1 hn
    obtain ⟨e, he, ho⟩ := h id (by simp)
    obtain ⟨hmono, hcivils, hheld, hpool⟩ := State.freeEntry_of_entry he
    have hrest : ∀ j ∈ ids, ∃ e : Entry, ((s.freeEntry id).slot j).entry = some e ∧ e.owner = p := by
      intro j hj
      have hne : j ≠ id := fun hji => hid (hji ▸ hj)
      rw [State.slot_freeEntry, if_neg hne]
      exact h j (by simp [hj])
    obtain ⟨hmono', hcivils', hheldp, hheldq, hpool'⟩ := ih hn (s.freeEntry id) hrest
    have hleft : ∀ j : EntryId, (!decide (j ∈ ids) && j != id) = !decide (j ∈ id :: ids) := by
      intro j
      by_cases hj : j = id <;> simp [hj]
    rw [List.foldl_cons]
    refine ⟨?_, ?_, ?_, fun q hq => ?_, fun _ => hpool' hpool⟩
    · rw [hmono', hmono, List.filter_filter]
      exact List.filter_congr fun x _ => hleft x.id
    · rw [hcivils', hcivils, List.filter_filter]
      exact List.filter_congr fun x _ => hleft x.id
    · rw [hheldp, hheld, if_pos ho.symm, List.length_cons]
      omega
    · rw [hheldq q hq, hheld, if_neg (fun hqo => hq (hqo.trans ho))]

/-- Only the table and the due lists change. -/
theorem State.freeEntriesOf_blocks (s : State) (p : Port) :
    s.freeEntriesOf p =
      { s with
        slots := (s.freeEntriesOf p).slots, held := (s.freeEntriesOf p).held, poolUse := (s.freeEntriesOf p).poolUse,
        mono := (s.freeEntriesOf p).mono, civils := (s.freeEntriesOf p).civils } := by
  have hblocks : ∀ (t : State) (id : EntryId), t.freeEntry id =
      { t with
        slots := (t.freeEntry id).slots, held := (t.freeEntry id).held, poolUse := (t.freeEntry id).poolUse,
        mono := (t.freeEntry id).mono, civils := (t.freeEntry id).civils } := by
    intro t id
    unfold State.freeEntry
    split <;> rfl
  unfold State.freeEntriesOf
  generalize s.entriesOf p = ids
  induction ids generalizing s with
  | nil => rfl
  | cons id ids ih =>
    rw [List.foldl_cons, ih, hblocks s id]

theorem State.slot_freeEntriesOf (s : State) (p : Port) (id : EntryId) :
    (s.freeEntriesOf p).slot id =
      if id ∈ s.entriesOf p then { gen := (s.slot id).gen, entry := none } else s.slot id :=
  State.foldl_pointwise (get := State.slot) (g := fun x => ({ gen := x.gen, entry := none } : Slot))
    State.slot_freeEntry _ (s.nodup_entriesOf p) s id

/-! ### The lines and the inputs of the port (R127, R143) -/

/-- R127: a line of the port is released, any other left. -/
def LineState.releasedBy (p : Port) (l : LineState) : LineState :=
  if l.claim.any (fun c => c.owner == p) then LineState.reset else l

/-- R143: an input of the port is released, any other left. -/
def InputState.releasedBy (p : Port) (i : InputState) : InputState :=
  if i.claim.any (fun c => c.owner == p) then { claim := none, seen := i.seen } else i

theorem State.ownsLine_eq (s : State) (p : Port) (l : Line) :
    s.ownsLine p l = (s.line l).claim.any (fun c => c.owner == p) := by
  unfold State.ownsLine
  cases (s.line l).claim <;> rfl

theorem State.ownsInput_eq (s : State) (p : Port) (i : Input) :
    s.ownsInput p i = (s.input i).claim.any (fun c => c.owner == p) := by
  unfold State.ownsInput
  cases (s.input i).claim <;> rfl

theorem State.line_releaseLinesOf (s : State) (p : Port) (l : Line) :
    (s.releaseLinesOf p).line l = if s.ownsLine p l then LineState.reset else s.line l := by
  have hstep : ∀ (t : State) (k j : Line),
      (if t.ownsLine p k then t.setLine k LineState.reset else t).line j =
        if j = k then (t.line k).releasedBy p else t.line j := by
    intro t k j
    rw [LineState.releasedBy, ← State.ownsLine_eq]
    by_cases hj : j = k
    · subst hj
      split <;> simp
    · split <;> simp [hj]
  rw [State.releaseLinesOf, State.foldl_pointwise (get := State.line) hstep allLines (List.nodup_finRange 8),
    if_pos (show l ∈ allLines from List.mem_finRange l), LineState.releasedBy, ← State.ownsLine_eq]

theorem State.input_releaseInputsOf (s : State) (p : Port) (i : Input) :
    (s.releaseInputsOf p).input i =
      if s.ownsInput p i then { claim := none, seen := (s.input i).seen } else s.input i := by
  have hstep : ∀ (t : State) (k j : Input),
      (if t.ownsInput p k then t.setClaim k none else t).input j =
        if j = k then (t.input k).releasedBy p else t.input j := by
    intro t k j
    rw [InputState.releasedBy, ← State.ownsInput_eq]
    by_cases hj : j = k
    · subst hj
      split <;> simp [State.setClaim]
    · split <;> simp [State.setClaim, hj]
  rw [State.releaseInputsOf, State.foldl_pointwise (get := State.input) hstep allInputs (List.nodup_finRange 4),
    if_pos (show i ∈ allInputs from List.mem_finRange i), InputState.releasedBy, ← State.ownsInput_eq]

/-- Only the lines change. -/
theorem State.releaseLinesOf_blocks (s : State) (p : Port) :
    s.releaseLinesOf p = { s with lines := (s.releaseLinesOf p).lines } := by
  unfold State.releaseLinesOf
  generalize allLines = ls
  induction ls generalizing s with
  | nil => rfl
  | cons l ls ih =>
    rw [List.foldl_cons, ih]
    split <;> rfl

/-- Only the inputs change. -/
theorem State.releaseInputsOf_blocks (s : State) (p : Port) :
    s.releaseInputsOf p = { s with inputs := (s.releaseInputsOf p).inputs } := by
  unfold State.releaseInputsOf
  generalize allInputs = is
  induction is generalizing s with
  | nil => rfl
  | cons i is ih =>
    rw [List.foldl_cons, ih]
    split <;> rfl

/-! ### The authority (R23) -/

theorem State.authorityReset_of_holds {s : State} {p : Port} (h : s.holds p = true) :
    s.authorityReset p = { s with lease := none, waiters := Vector.replicate 4 false, step := none } := by
  rw [State.authorityReset, if_pos h]
  rfl

theorem State.authorityReset_of_not_holds {s : State} {p : Port} (h : s.holds p = false) :
    s.authorityReset p = { s with waiters := s.waiters.set p false } := by
  rw [State.authorityReset, h]
  rfl

/-! ### The whole reset -/

/-- The shared blocks once the reset of port `p` has reached them. -/
def State.clearedOf (s : State) (p : Port) : State :=
  (((s.freeEntriesOf p).releaseLinesOf p).releaseInputsOf p).authorityReset p

theorem State.resetPort_eq (s : State) (p : Port) (brk : Bool) :
    s.resetPort p brk =
      State.offerEach
        { (s.clearedOf p).setPort p (((s.clearedOf p).port p).afterPortReset brk) with freeCount := s.freeCount + 1 }
        (s.resetRecords p) := rfl

/-- The clock, civil time and its slew, the ports and the notes of heads reached stay. -/
theorem State.clearedOf_blocks (s : State) (p : Port) :
    s.clearedOf p =
      { s with
        step := (s.clearedOf p).step, lease := (s.clearedOf p).lease, waiters := (s.clearedOf p).waiters,
        slots := (s.freeEntriesOf p).slots, held := (s.freeEntriesOf p).held, poolUse := (s.freeEntriesOf p).poolUse,
        mono := (s.freeEntriesOf p).mono, civils := (s.freeEntriesOf p).civils,
        lines := ((s.freeEntriesOf p).releaseLinesOf p).lines,
        inputs := (((s.freeEntriesOf p).releaseLinesOf p).releaseInputsOf p).inputs } := by
  have hauth : ∀ t : State, t.authorityReset p =
      { t with
        step := (t.authorityReset p).step, lease := (t.authorityReset p).lease,
        waiters := (t.authorityReset p).waiters } := by
    intro t
    unfold State.authorityReset
    split <;> rfl
  unfold State.clearedOf
  rw [hauth, State.releaseInputsOf_blocks, State.releaseLinesOf_blocks, State.freeEntriesOf_blocks]

/-- The reset reaches the authority with what it was before the reset. -/
theorem State.clearedOf_authority (s : State) (p : Port) :
    (s.clearedOf p).lease = (s.authorityReset p).lease ∧ (s.clearedOf p).waiters = (s.authorityReset p).waiters ∧
    (s.clearedOf p).step = (s.authorityReset p).step := by
  have hreset : ∀ t : State, t.lease = s.lease → t.waiters = s.waiters → t.step = s.step →
      (t.authorityReset p).lease = (s.authorityReset p).lease ∧
      (t.authorityReset p).waiters = (s.authorityReset p).waiters ∧
      (t.authorityReset p).step = (s.authorityReset p).step := by
    intro t hl hw hx
    have hh : t.holds p = s.holds p := by rw [State.holds, State.holds, hl]
    cases h : s.holds p with
    | true =>
      rw [State.authorityReset_of_holds (hh.trans h), State.authorityReset_of_holds h]
      exact ⟨rfl, rfl, rfl⟩
    | false =>
      rw [State.authorityReset_of_not_holds (hh.trans h), State.authorityReset_of_not_holds h, hl, hw, hx]
      exact ⟨rfl, rfl, rfl⟩
  apply hreset <;> rw [State.releaseInputsOf_blocks, State.releaseLinesOf_blocks, State.freeEntriesOf_blocks]

/-! ### What a port reset leaves of the ports -/

theorem State.port_clearedOf (s : State) (p q : Port) : (s.clearedOf p).port q = s.port q := by
  have hports : (s.clearedOf p).ports = s.ports := by rw [State.clearedOf_blocks]
  simp only [State.port, hports]

/-- Offers after a change of one port: the blocks outside the ports are those of the state before. -/
theorem State.offerEach_setPort_blocks (c : State) (p : Port) (x : PortState) (n : Nat) (f : Port → List Record) :
    State.offerEach { c.setPort p x with freeCount := n } f =
      { c with freeCount := n, ports := (State.offerEach { c.setPort p x with freeCount := n } f).ports } := by
  rw [State.offerEach_blocks]
  rfl

theorem State.port_offerEach_setPort (c : State) (p q : Port) (x : PortState) (n : Nat) (f : Port → List Record) :
    (State.offerEach { c.setPort p x with freeCount := n } f).port q =
      (if q = p then x else c.port q).offerList (f q) := by
  rw [State.port_offerEach]
  exact congrArg (fun ps : PortState => ps.offerList (f q)) (State.port_setPort c p q x)

theorem State.resetPort_blocks (s : State) (p : Port) (brk : Bool) :
    s.resetPort p brk =
      { s.clearedOf p with freeCount := s.freeCount + 1, ports := (s.resetPort p brk).ports } := by
  rw [State.resetPort_eq]
  exact State.offerEach_setPort_blocks _ _ _ _ _

theorem State.port_resetPort (s : State) (p q : Port) (brk : Bool) :
    (s.resetPort p brk).port q =
      (if q = p then (s.port p).afterPortReset brk else s.port q).offerList (s.resetRecords p q) := by
  rw [State.resetPort_eq, State.port_offerEach_setPort, State.port_clearedOf, State.port_clearedOf]

/-- What a port reset leaves of the clock, of civil time and of the notes of heads reached. -/
theorem State.resetPort_clock (s : State) (p : Port) (brk : Bool) :
    SameClock s (s.resetPort p brk) ∧ (s.resetPort p brk).civil = s.civil ∧ (s.resetPort p brk).slew = s.slew ∧
    (s.resetPort p brk).reached = s.reached ∧ (s.resetPort p brk).pending = s.pending := by
  refine ⟨⟨?_, ?_, ?_, ?_, ?_⟩, ?_, ?_, ?_, ?_⟩ <;> rw [State.resetPort_blocks, State.clearedOf_blocks]

/-- What a port reset makes of the authority, and of the pending step with it (R23). -/
theorem State.resetPort_authority (s : State) (p : Port) (brk : Bool) :
    (s.resetPort p brk).lease = (s.authorityReset p).lease ∧
    (s.resetPort p brk).waiters = (s.authorityReset p).waiters ∧
    (s.resetPort p brk).step = (s.authorityReset p).step := by
  obtain ⟨hlease, hwaiters, hstep⟩ := s.clearedOf_authority p
  rw [← hlease, ← hwaiters, ← hstep]
  refine ⟨?_, ?_, ?_⟩ <;> rw [State.resetPort_blocks]

/-- R48: the pool use that the held counts give, written out. -/
theorem poolUseOf_held (s : State) :
    poolUseOf s.held = (s.heldBy 0 - 8) + (s.heldBy 1 - 8) + (s.heldBy 2 - 8) + (s.heldBy 3 - 8) := by
  simp [poolUseOf, allPorts, Config.reservedEntries, State.heldBy]

/-- What a port reset makes of the schedule table, the due lists and the pins. -/
theorem State.resetPort_shared (s : State) (p : Port) (brk : Bool) :
    (s.resetPort p brk).slots = (s.freeEntriesOf p).slots ∧ (s.resetPort p brk).held = (s.freeEntriesOf p).held ∧
    (s.resetPort p brk).poolUse = (s.freeEntriesOf p).poolUse ∧ (s.resetPort p brk).mono = (s.freeEntriesOf p).mono ∧
    (s.resetPort p brk).civils = (s.freeEntriesOf p).civils ∧
    (s.resetPort p brk).lines = ((s.freeEntriesOf p).releaseLinesOf p).lines ∧
    (s.resetPort p brk).inputs = (((s.freeEntriesOf p).releaseLinesOf p).releaseInputsOf p).inputs := by
  refine ⟨?_, ?_, ?_, ?_, ?_, ?_, ?_⟩ <;> rw [State.resetPort_blocks, State.clearedOf_blocks]

theorem State.line_resetPort (s : State) (p : Port) (brk : Bool) (l : Line) :
    (s.resetPort p brk).line l = if s.ownsLine p l then LineState.reset else s.line l := by
  obtain ⟨-, -, -, -, -, hlines, -⟩ := s.resetPort_shared p brk
  have hlines' : (s.freeEntriesOf p).lines = s.lines := by rw [State.freeEntriesOf_blocks]
  have hsame : (s.freeEntriesOf p).line l = s.line l := by simp only [State.line, hlines']
  have hline : (s.resetPort p brk).line l = ((s.freeEntriesOf p).releaseLinesOf p).line l := by
    simp only [State.line, hlines]
  rw [hline, State.line_releaseLinesOf, State.ownsLine_eq, State.ownsLine_eq, hsame]

theorem State.input_resetPort (s : State) (p : Port) (brk : Bool) (i : Input) :
    (s.resetPort p brk).input i =
      if s.ownsInput p i then { claim := none, seen := (s.input i).seen } else s.input i := by
  obtain ⟨-, -, -, -, -, -, hinputs⟩ := s.resetPort_shared p brk
  have hinputs' : ((s.freeEntriesOf p).releaseLinesOf p).inputs = s.inputs := by
    rw [State.releaseLinesOf_blocks, State.freeEntriesOf_blocks]
  have hsame : ((s.freeEntriesOf p).releaseLinesOf p).input i = s.input i := by simp only [State.input, hinputs']
  have hinput : (s.resetPort p brk).input i = (((s.freeEntriesOf p).releaseLinesOf p).releaseInputsOf p).input i := by
    simp only [State.input, hinputs]
  rw [hinput, State.input_releaseInputsOf, State.ownsInput_eq, State.ownsInput_eq, hsame]

theorem State.slot_resetPort (s : State) (p : Port) (brk : Bool) (id : EntryId) :
    (s.resetPort p brk).slot id =
      if id ∈ s.entriesOf p then { gen := (s.slot id).gen, entry := none } else s.slot id := by
  obtain ⟨hslots, -⟩ := s.resetPort_shared p brk
  rw [← State.slot_freeEntriesOf]
  simp only [State.slot, hslots]

theorem State.port_resetPort_self (s : State) (p : Port) (brk : Bool) :
    (s.resetPort p brk).port p = (s.port p).afterPortReset brk := by
  have hnone : s.resetRecords p p = [] := if_pos rfl
  rw [State.port_resetPort, if_pos rfl, hnone, PortState.offerList_nil]

theorem State.authorityResetRecords_eq (s : State) (p q : Port) :
    s.authorityResetRecords p q =
      if s.holds p then
        (if s.waiters[q] then [authorityRecord .free s.runTime] else []) ++ stepGone s.step s.runTime s.civil
      else [] := by
  rw [State.authorityResetRecords, State.authorityEndRecords, State.stepCancelled_request]
  rfl

/-- R23, R158: PEER_RESET before the records of the authority's end, or after them. -/
theorem State.resetRecords_of_ne (s : State) {p q : Port} (h : q ≠ p) :
    s.resetRecords p q = s.peerResetRecord p :: s.authorityResetRecords p q ∨
    s.resetRecords p q = s.authorityResetRecords p q ++ [s.peerResetRecord p] := by
  unfold State.resetRecords
  rw [if_neg h]
  dsimp only
  split
  · next hempty =>
    rw [List.isEmpty_iff.1 hempty]
    exact Or.inl rfl
  · split
    · exact Or.inl rfl
    · exact Or.inr rfl

/-- The link of the reset port, its frame on the line written out by kind (R173, R191). -/
theorem Link.afterPortReset_eq (l : Link) (brk : Bool) :
    l.afterPortReset brk =
      { Link.reset with
        rx := if brk then .waitMark else .hunt
        spaceSince := if brk then none else l.spaceSince
        arriving := if brk then none else l.arriving
        acks := l.acks
        tx := match l.tx with
          | some (.response bytes _) => some (if brk then .cut bytes false else .response bytes false)
          | some (.note bytes _) => some (if brk then .cut bytes true else .note bytes false)
          | some (.cut bytes isNote) => some (.cut bytes isNote)
          | none => none } := by
  unfold Link.afterPortReset
  rcases l.tx with _ | (_ | _ | _) <;> cases brk <;> rfl

/-- Settles O54: the port's own blocks from `PortState.afterPortReset`, the shared ones from the folds over its entries,
lines and inputs, the records from `State.resetRecords_of_ne`. -/
theorem portResetEffects : Obligations.PortResetEffects := by
  intro s p brk t own entries lines inputs peer ending
  have hself : t.port p = (s.port p).afterPortReset brk := State.port_resetPort_self s p brk
  obtain ⟨-, hheld, hpoolUse, hmono, hcivils, -, -⟩ := s.resetPort_shared p brk
  obtain ⟨hclock, hcivil, hslew, hreached, hpending⟩ := s.resetPort_clock p brk
  obtain ⟨hlease, hwaiters, hstep⟩ := s.resetPort_authority p brk
  obtain ⟨hmonoFree, hcivilsFree, hheldp, hheldq, hpool⟩ :=
    State.foldl_freeEntry (s.entriesOf p) (s.nodup_entriesOf p) s (fun id h => (s.mem_entriesOf p id).1 h)
  have hmem : ∀ id : EntryId, decide (id ∈ s.entriesOf p) = own id := by
    intro id
    simp [State.entriesOf, allIds, own]
  refine ⟨?_, ?_, ?_, fun q hq => ?_, fun id => ?_, ?_, ?_, fun hcounts => ?_, State.line_resetPort s p brk,
    State.input_resetPort s p brk, fun hh => ?_, fun hh => ?_, hclock, hcivil, hslew, hreached, hpending⟩
  · rw [hself]
    rfl
  · rw [hself]
    rfl
  · exact (congrArg PortState.link hself).trans (Link.afterPortReset_eq (s.link p) brk)
  · have hport : t.port q = (s.port q).offerList (s.resetRecords p q) := by
      rw [show t.port q = _ from State.port_resetPort s p q brk, if_neg hq]
    have hending : s.authorityResetRecords p q = ending q := State.authorityResetRecords_eq s p q
    rw [hport]
    rcases State.resetRecords_of_ne s hq with h | h
    · exact Or.inl (by rw [h, hending]; rfl)
    · exact Or.inr (by rw [h, hending]; rfl)
  · rw [show t.slot id = _ from State.slot_resetPort s p brk id, ← hmem]
    simp only [decide_eq_true_eq]
  · rw [show t.mono = _ from hmono, State.freeEntriesOf, hmonoFree]
    simp only [hmem]
  · rw [show t.civils = _ from hcivils, State.freeEntriesOf, hcivilsFree]
    simp only [hmem]
  · obtain ⟨hcount, hsum, -⟩ := hcounts
    have htheld : ∀ q : Port, t.heldBy q = (s.freeEntriesOf p).heldBy q := by
      intro q
      simp only [State.heldBy, t, hheld]
    refine ⟨?_, fun q hq => ?_, ?_⟩
    · rw [htheld, State.freeEntriesOf, hheldp, hcount p, Nat.sub_self]
    · rw [htheld, State.freeEntriesOf, hheldq q hq]
    · simp only [htheld]
      rw [show t.poolUse = _ from hpoolUse, ← poolUseOf_held]
      exact hpool (by rw [hsum, poolUseOf_held])
  · rw [State.authorityReset_of_holds hh] at hlease hwaiters hstep
    refine ⟨hlease, fun q => ?_, hstep⟩
    rw [hwaiters]
    simp
  · rw [State.authorityReset_of_not_holds hh] at hlease hwaiters hstep
    refine ⟨hlease, ?_, fun q hq => ?_, hstep⟩
    · rw [hwaiters]
      simp
    · have hne : p.val ≠ q.val := fun h => hq (Fin.ext h.symm)
      rw [hwaiters]
      simp [hne]

end Sys2Proof.Machine
end

section
/-! SUPPORT. What every command does to the clock and to civil time: most leave both, but that an end of the authority or
a port reset may discard the pending step.
-/

namespace Sys2Proof.Machine

/-! ### Commands that move neither scale of time -/

/-- Reset pin, clock, civil time and slew are as before; the pending step is as before or discarded. -/
structure TimeKept (s t : State) : Prop where
  rstN         : t.rstN = s.rstN
  runTime      : t.runTime = s.runTime
  refclkCycles : t.refclkCycles = s.refclkCycles
  civil        : t.civil = s.civil
  slew         : t.slew = s.slew
  step         : t.step = s.step ∨ t.step = none

theorem TimeKept.refl (s : State) : TimeKept s s := ⟨rfl, rfl, rfl, rfl, rfl, Or.inl rfl⟩

theorem TimeKept.trans {s t u : State} (h : TimeKept s t) (k : TimeKept t u) : TimeKept s u where
  rstN := k.rstN.trans h.rstN
  runTime := k.runTime.trans h.runTime
  refclkCycles := k.refclkCycles.trans h.refclkCycles
  civil := k.civil.trans h.civil
  slew := k.slew.trans h.slew
  step := k.step.elim (fun e => e ▸ h.step) Or.inr

/-- What changes only the table, the lists, the lines and the ports keeps time. -/
theorem TimeKept.of_shell {s t : State} (h : t.shell = s.shell) : TimeKept s t where
  rstN := State.rstN_of_shell h
  runTime := State.runTime_of_shell h
  refclkCycles := State.refclkCycles_of_shell h
  civil := State.civil_of_shell h
  slew := State.slew_of_shell h
  step := Or.inl (State.step_of_shell h)

theorem TimeKept.setPort (s : State) (p : Port) (x : PortState) : TimeKept s (s.setPort p x) := .of_shell rfl

theorem TimeKept.setLink (s : State) (p : Port) (x : Link) : TimeKept s (s.setLink p x) := .of_shell rfl

theorem TimeKept.setLine (s : State) (l : Line) (x : LineState) : TimeKept s (s.setLine l x) := .of_shell rfl

theorem TimeKept.setInput (s : State) (i : Input) (x : InputState) : TimeKept s (s.setInput i x) :=
  ⟨rfl, rfl, rfl, rfl, rfl, Or.inl rfl⟩

theorem TimeKept.setAuthority (s : State) (l : Option Lease) (w : Vector Bool 4) : TimeKept s (s.setAuthority l w) :=
  ⟨rfl, rfl, rfl, rfl, rfl, Or.inl rfl⟩

theorem TimeKept.setReached (s : State) (r : Reached) : TimeKept s (s.setReached r) :=
  ⟨rfl, rfl, rfl, rfl, rfl, Or.inl rfl⟩

/-- A pending step discarded. -/
theorem TimeKept.dropStep (s : State) : TimeKept s (s.setCivilTime s.civil s.slew none) :=
  ⟨rfl, rfl, rfl, rfl, rfl, Or.inr rfl⟩

theorem TimeKept.offerEach (s : State) (f : Port → List Record) : TimeKept s (s.offerEach f) :=
  .of_shell (s.shell_offerEach f)

theorem TimeKept.foldl {α : Type} {f : State → α → State} (h : ∀ s a, TimeKept s (f s a)) (xs : List α) (s : State) :
    TimeKept s (xs.foldl f s) := by
  induction xs generalizing s with
  | nil => exact .refl s
  | cons x xs ih => exact (h s x).trans (ih (f s x))

/-! ### Requests

A relation that every change of a port's link keeps is kept by a request whose meaning keeps it; the relations are
`TimeKept`, the reset pin, and the invariant. -/

/-- A relation between the states before and after, that a change of a port's link always keeps. -/
structure LinkBlind (R : State → State → Prop) : Prop where
  refl    : ∀ s, R s s
  trans   : ∀ {s t u}, R s t → R t u → R s u
  setLink : ∀ s p x, R s (s.setLink p x)

section
variable {R : State → State → Prop} {run : List Byte → State → State × Reply}

theorem LinkBlind.serve (hR : LinkBlind R) (h : ∀ args t, R t (run args t).1) (s : State) (p : Port) (code : Byte) :
    R s (s.serve p code run) := by
  rcases s.serve_cases p code run with hs | ⟨tag, args, -, hs⟩
  · rw [hs]
    exact hR.refl s
  · rw [hs]
    exact hR.trans (hR.setLink s p _) (hR.trans (h args _) (hR.setLink _ p _))

theorem LinkBlind.withLength (hR : LinkBlind R) (n : Nat) (h : ∀ args t, R t (run args t).1) (args : List Byte)
    (t : State) : R t (withLength n run args t).1 := by
  by_cases hn : args.length = n
  · rw [withLength_eq hn]
    exact h args t
  · rw [withLength_ne hn]
    exact hR.refl t

theorem LinkBlind.civilChange (hR : LinkBlind R) (p : Port) (n : Nat) (h : ∀ args t, R t (run args t).1)
    (args : List Byte) (t : State) : R t (civilChange p n run args t).1 := by
  refine hR.withLength n (fun args t => ?_) args t
  split
  · exact h args t
  · exact hR.refl t

theorem LinkBlind.withEntry (hR : LinkBlind R) {run : EntryId → Entry → State → State × Reply} (p : Port)
    (h : ∀ id e t, R t (run id e t).1) (args : List Byte) (t : State) : R t (withEntry p run args t).1 := by
  refine hR.withLength 2 (fun args t => ?_) args t
  split
  · exact hR.refl t
  · next id _ =>
    split
    · exact hR.refl t
    · next e _ =>
      split
      · exact hR.refl t
      · split
        · exact hR.refl t
        · exact h id e t

end

/-- What holds of the state that the command is known to answer holds of the state that it answers. -/
theorem of_exec_eq {P : State → Prop} {c : Instr} {s t u : State} (h : exec c s = .next t) (hu : exec c s = .next u)
    (hp : P u) : P t := by
  rw [hu, Host.Outcome.next.injEq] at h
  exact h ▸ hp

theorem TimeKept.linkBlind : LinkBlind TimeKept := ⟨.refl, .trans, .setLink⟩

/-! ### The operations that most commands are made of -/

theorem State.endAuthority_timeKept (s : State) (q : Option Port) : TimeKept s (s.endAuthority q) :=
  ((TimeKept.setAuthority s none _).trans (.dropStep _)).trans (.offerEach _ _)

theorem State.claimAuthority_timeKept (s : State) (p : Port) (ms : Nat) : TimeKept s (s.claimAuthority p ms).1 := by
  unfold State.claimAuthority
  dsimp only
  split
  · exact .setAuthority _ _ _
  · split <;> exact .setAuthority _ _ _

theorem State.cancelStep_timeKept (s : State) : TimeKept s s.cancelStep :=
  (TimeKept.dropStep s).trans (.offerEach _ _)

theorem State.shell_enter (s : State) (id : EntryId) (e : Entry) : (s.enter id e).shell = s.shell := by
  unfold State.enter
  split
  · exact s.shell_armMono _ _ _ _
  · exact s.shell_armMono _ _ _ _
  · split
    · exact s.shell_placeAt _ _ _
    · exact s.shell_park _ _ _
  · exact s.shell_park _ _ _

theorem State.shell_create (s : State) (p : Port) (a : CreateArgs) : (s.create p a).1.shell = s.shell := by
  unfold State.create
  split
  · rfl
  · rfl
  · exact (State.shell_enter _ _ _).trans (s.shell_allocate _ _)

theorem State.shell_resume (s : State) (id : EntryId) (e : Entry) : (s.resume id e).1.shell = s.shell := by
  unfold State.resume
  split
  · exact s.shell_armMono _ _ _ _
  · exact s.shell_armMono _ _ _ _
  · split
    · exact s.shell_placeAt _ _ _
    · exact s.shell_park _ _ _
  · split
    · exact s.shell_park _ _ _
    · rfl

theorem State.shell_claimLine (s : State) (p : Port) (l : Line) (idle : Level) :
    (s.claimLine p l idle).1.shell = s.shell := by
  unfold State.claimLine
  dsimp only
  split
  · rfl
  · split <;> rfl

theorem State.shell_driveLine (s : State) (p : Port) (a : LineAction) : (s.driveLine p a).1.shell = s.shell := by
  unfold State.driveLine
  split
  · exact s.shell_askLine _ _ _
  · rfl

theorem State.claimInput_timeKept (s : State) (p : Port) (i : Input) (mode : EdgeMode) (holdoff : Nat) :
    TimeKept s (s.claimInput p i mode holdoff).1 := by
  unfold State.claimInput
  split
  · exact .setInput _ _ _
  · split
    · exact .setInput _ _ _
    · exact .refl s

theorem State.releaseInput_timeKept (s : State) (p : Port) (i : Input) : TimeKept s (s.releaseInput p i).1 :=
  (TimeKept.foldl (fun t id => .of_shell (t.shell_endEntry id .captureLost)) _ s).trans (.setInput _ _ _)

theorem State.acceptEdge_timeKept (s : State) (i : Input) (c : InputClaim) (pol : Polarity) :
    TimeKept s (s.acceptEdge i c pol) :=
  ((TimeKept.of_shell (s.shell_offer _ _)).trans
    (TimeKept.foldl (fun t id => .of_shell (t.shell_armByEdge id)) _ _)).trans (.setInput _ _ _)

theorem State.takeEdge_timeKept (s : State) (i : Input) (pol : Polarity) : TimeKept s (s.takeEdge i pol) := by
  unfold State.takeEdge
  split
  · exact .refl s
  · split
    · split
      · exact s.acceptEdge_timeKept _ _ _
      · exact .setInput _ _ _
    · exact .refl s

theorem State.resetPort_timeKept (s : State) (p : Port) (brk : Bool) : TimeKept s (s.resetPort p brk) := by
  obtain ⟨⟨hrstN, -, -, hrunTime, hrefclk⟩, hcivil, hslew, -, -⟩ := s.resetPort_clock p brk
  obtain ⟨-, -, hstep⟩ := s.resetPort_authority p brk
  refine ⟨hrstN, hrunTime, hrefclk, hcivil, hslew, ?_⟩
  rw [hstep]
  cases h : s.holds p with
  | true => exact Or.inr (by rw [State.authorityReset_of_holds h])
  | false => exact Or.inl (by rw [State.authorityReset_of_not_holds h])

theorem State.ackExpired_timeKept (s : State) (p : Port) : TimeKept s (s.ackExpired p) := by
  unfold State.ackExpired
  dsimp only
  split
  · split
    · exact .setPort _ _ _
    · exact s.resetPort_timeKept p false
  · exact .setPort _ _ _

/-! ### The commands -/

/-- The commands that may move run time, civil time, the slew or the reset pin, or set a pending step. -/
def movesTime : Instr → Bool
  | .runTimeAdvance | .adjustedAdvance | .calendarEnd | .secondBoundary => true
  | .setCivil _ | .stepCivil _ | .slewCivil _ | .invalidateCivil _ => true
  | .deviceReset | .resetRelease _ _ _ _ _ _ => true
  | _ => false

/-- Every other command keeps time. -/
theorem exec_timeKept {c : Instr} {s t : State} (hc : movesTime c = false) (hr : s.rstN = true)
    (h : exec c s = .next t) : TimeKept s t := by
  have key : ∀ u : State, exec c s = .next u → TimeKept s u → TimeKept s t := fun u => of_exec_eq h
  have blind := TimeKept.linkBlind
  cases c with
  | runTimeAdvance | adjustedAdvance | calendarEnd | secondBoundary | deviceReset => exact absurd hc (by decide)
  | setCivil | stepCivil | slewCivil | invalidateCivil | resetRelease => cases hc
  | readTime p => exact key _ (execReadTime_released p hr) (blind.serve (blind.withLength 0 fun _ t => .refl t) s p _)
  | claimAuthority p =>
    refine key _ (execClaimAuthority_released p hr) (blind.serve (blind.withLength 4 fun args t => ?_) s p _)
    dsimp only
    split
    · exact t.claimAuthority_timeKept p _
    · exact .refl t
  | releaseAuthority p =>
    refine key _ (execReleaseAuthority_released p hr) (blind.serve (blind.withLength 0 fun _ t => ?_) s p _)
    split
    · exact t.endAuthority_timeKept none
    · exact .refl t
  | leaseExpiry =>
    refine key _ (execLeaseExpiry_released hr) ?_
    split
    · exact .refl s
    · split
      · exact s.endAuthority_timeKept _
      · exact .refl s
  | cancelStep p =>
    refine key _ (execCancelStep_released p hr) (blind.serve (blind.civilChange p 0 fun _ t => ?_) s p _)
    split
    · exact .refl t
    · exact t.cancelStep_timeKept
  | createEntry p =>
    refine key _ (execCreateEntry_released p hr) (blind.serve (fun args t => ?_) s p _)
    split
    · exact .refl t
    · exact .of_shell (t.shell_create p _)
  | queryEntry p =>
    exact key _ (execQueryEntry_released p hr) (blind.serve (blind.withEntry p fun _ _ t => .refl t) s p _)
  | listEntries p =>
    exact key _ (execListEntries_released p hr) (blind.serve (blind.withLength 0 fun _ t => .refl t) s p _)
  | cancelEntry p =>
    exact key _ (execCancelEntry_released p hr)
      (blind.serve (blind.withEntry p fun id _ t => .of_shell (t.shell_freeEntry id)) s p _)
  | suspendEntry p =>
    refine key _ (execSuspendEntry_released p hr) (blind.serve (blind.withEntry p fun id e t => ?_) s p _)
    split
    · exact .refl t
    · exact .of_shell (t.shell_park id e _)
  | resumeEntry p =>
    refine key _ (execResumeEntry_released p hr) (blind.serve (blind.withEntry p fun id e t => ?_) s p _)
    split
    · exact .of_shell (t.shell_resume id e)
    · exact .refl t
  | monoFiring =>
    refine key _ (execMonoFiring_released hr) ?_
    split
    · exact .refl s
    · split
      · exact (TimeKept.setReached s _).trans (.of_shell (State.shell_fireMono _ _))
      · exact .refl s
  | civilFiring =>
    refine key _ (execCivilFiring_released hr) ?_
    split
    · split
      · exact (TimeKept.setReached s _).trans (.of_shell (State.shell_fireCivil _ _))
      · exact .refl s
    · exact .refl s
  | claimLine p =>
    refine key _ (execClaimLine_released p hr) (blind.serve (blind.withLength 2 fun args t => ?_) s p _)
    split
    · exact .of_shell (t.shell_claimLine p _ _)
    · exact .refl t
  | releaseLine p =>
    refine key _ (execReleaseLine_released p hr) (blind.serve (blind.withLength 1 fun args t => ?_) s p _)
    split
    · split
      · exact .setLine _ _ _
      · exact .refl t
    · exact .refl t
  | driveLine p =>
    refine key _ (execDriveLine_released p hr) (blind.serve (blind.withLength 6 fun args t => ?_) s p _)
    split
    · exact .of_shell (t.shell_driveLine p _)
    · exact .refl t
  | pulseEnd l =>
    refine key _ (execPulseEnd_released l hr) ?_
    split
    · split
      · exact .setLine _ _ _
      · exact .refl s
    · exact .refl s
  | claimInput p =>
    refine key _ (execClaimInput_released p hr) (blind.serve (blind.withLength 4 fun args t => ?_) s p _)
    split
    · exact t.claimInput_timeKept p _ _ _
    · exact .refl t
  | releaseInput p =>
    refine key _ (execReleaseInput_released p hr) (blind.serve (blind.withLength 1 fun args t => ?_) s p _)
    split
    · split
      · exact t.releaseInput_timeKept p _
      · exact .refl t
    · exact .refl t
  | captureEdge i level =>
    refine key _ (execCaptureEdge_released i level hr) ?_
    split
    · exact .setInput _ _ _
    · split
      · exact .refl s
      · exact (TimeKept.setInput s _ _).trans (State.takeEdge_timeKept _ _ _)
  | holdoffExpiry i =>
    refine key _ (execHoldoffExpiry_released i hr) ?_
    split
    · exact .refl s
    · split
      · exact .refl s
      · split
        · exact .setInput _ _ _
        · exact .refl s
  | transmitStart p => exact key _ (execTransmitStart_released p hr) (.setPort _ _ _)
  | noteTransmissionEnd p => exact key _ (execNoteTransmissionEnd_released p hr) (.setPort _ _ _)
  | responseTransmissionEnd p =>
    refine key _ (execResponseTransmissionEnd_released p hr) ?_
    split
    · dsimp only
      split
      · exact (TimeKept.setLink s _ _).trans (State.resetPort_timeKept _ _ _)
      · exact .setLink _ _ _
    · exact .setLink _ _ _
    · exact .refl s
    · exact .refl s
    · exact .refl s
  | ackFrame p =>
    refine key _ (execAckFrame_released p hr) ?_
    split
    · exact .refl s
    · exact (TimeKept.setLink s _ _).trans (.setPort _ _ _)
  | ackTimeout p =>
    refine key _ (execAckTimeout_released p hr) ?_
    split
    · exact .refl s
    · split
      · exact s.ackExpired_timeKept p
      · exact .refl s
  | backoffExpiry p =>
    refine key _ (execBackoffExpiry_released p hr) ?_
    split
    · exact .refl s
    · split
      · exact .setPort _ _ _
      · exact .refl s
  | setPortConfig p =>
    refine key _ (execSetPortConfig_released p hr) (blind.serve (blind.withLength 5 fun args t => ?_) s p _)
    split
    · exact .setPort _ _ _
    · exact .refl t
  | frameComplete p b =>
    refine key _ (execFrameComplete_released p b hr) ?_
    split
    · exact .setPort _ _ _
    · exact .refl s
  | lengthFault p b =>
    refine key _ (execLengthFault_released p b hr) ?_
    split
    · exact .setPort _ _ _
    · exact .refl s
  | gapExpiry p =>
    refine key _ (execGapExpiry_released p hr) ?_
    split
    · exact .setLink _ _ _
    · exact .refl s
  | breakSeen p =>
    refine key _ (execBreakSeen_released p hr) ?_
    split
    · exact s.resetPort_timeKept p true
    · exact .refl s
  | unknownRequest p =>
    have answered : ∀ (tag code : Byte) (r : Reply), TimeKept s ((s.takeRequest p).respond p tag code r) :=
      fun _ _ _ => (TimeKept.setLink s _ _).trans (.setLink _ _ _)
    refine key _ (execUnknownRequest_released p hr) ?_
    split
    · exact .refl s
    · exact answered _ _ _
    · exact answered _ _ _
    · split
      · exact .refl s
      · exact answered _ _ _
  | getPortStatus p =>
    exact key _ (execGetPortStatus_released p hr) (blind.serve (blind.withLength 0 fun _ t => .refl t) s p _)
  | clearFaults p =>
    exact key _ (execClearFaults_released p hr) (blind.serve (blind.withLength 0 fun _ t => .setLink t p _) s p _)
  | getInfo p => exact key _ (execGetInfo_released p hr) (blind.serve (blind.withLength 0 fun _ t => .refl t) s p _)
  | portReset p => exact key _ (execPortReset_released p hr) (blind.serve (blind.withLength 0 fun _ t => .refl t) s p _)
  | characterReceived p b moment =>
    refine key _ (execCharacterReceived_released p b moment hr) ?_
    split
    · exact .setLink _ _ _
    · exact .setPort _ _ _
    · exact .setLink _ _ _
  | receiveLineAtMark p => exact key _ (execReceiveLineAtMark_released p hr) (.setLink _ _ _)

end Sys2Proof.Machine
end

section
/-! SUPPORT. The commands that move time: what each makes of the clock, of civil time and of the corrections, and that
each keeps the invariant of civil time (R5, R6, R13, R28, R30, R33, R34).
-/

namespace Sys2Proof.Machine

/-! ### The invariant -/

/-- What `CorrectionsOk` says of a running slew (R33, R34). -/
def Slew.InRange (w : Slew) : Prop :=
  1 ≤ w.remaining.natAbs ∧ w.remaining.natAbs ≤ 10000000 ∧ 1 ≤ w.rate ∧ w.rate ≤ 500 ∧
  w.interval = 1000000 / w.rate ∧ w.count < w.interval

/-- The two invariants of time together. -/
def CivilTimeOk (s : State) : Prop := CorrectionsOk s ∧ TimeOk s

section
variable {s : State} {c : Civil}

theorem CivilTimeOk.unset (h : CivilTimeOk s) (hc : s.civil = none) : s.slew = none ∧ s.step = none := by
  obtain ⟨⟨hunset, -⟩, -⟩ := h
  exact hunset hc

theorem CivilTimeOk.slew_inRange {w : Slew} (h : CivilTimeOk s) (hw : s.slew = some w) : w.InRange := by
  obtain ⟨⟨-, hslew⟩, -⟩ := h
  exact hslew w hw

theorem CivilTimeOk.runTime_lt (h : CivilTimeOk s) : s.runTime < Config.runTimeLimit := by
  obtain ⟨-, hrun, -⟩ := h
  exact hrun

theorem CivilTimeOk.refclkCycles_lt (h : CivilTimeOk s) : s.refclkCycles < Config.cyclesPerAdvance := by
  obtain ⟨-, -, hcyc, -⟩ := h
  exact hcyc

theorem CivilTimeOk.wellFormed (h : CivilTimeOk s) (hc : s.civil = some c) : c.wellFormed = true := by
  obtain ⟨-, -, -, hcivil⟩ := h
  exact (hcivil c hc).1

theorem CivilTimeOk.step_ok {x : PendingStep} (h : CivilTimeOk s) (hc : s.civil = some c) (hx : s.step = some x) :
    x.ok c := by
  obtain ⟨-, -, -, hcivil⟩ := h
  exact (hcivil c hc).2 x hx

end

/-- The invariant of a state with civil time UNSET. -/
theorem civilTimeOk_of_unset {t : State} (hrun : t.runTime < Config.runTimeLimit)
    (hcyc : t.refclkCycles < Config.cyclesPerAdvance) (hc : t.civil = none) (hw : t.slew = none)
    (hx : t.step = none) : CivilTimeOk t := by
  refine ⟨⟨fun _ => ⟨hw, hx⟩, fun w h => ?_⟩, hrun, hcyc, fun c h => ?_⟩
  · rw [hw] at h
    cases h
  · rw [hc] at h
    cases h

/-- The invariant of a state with civil time VALID. -/
theorem civilTimeOk_of_valid {t : State} {c : Civil} (hrun : t.runTime < Config.runTimeLimit)
    (hcyc : t.refclkCycles < Config.cyclesPerAdvance) (hc : t.civil = some c) (hwf : c.wellFormed = true)
    (hw : ∀ w, t.slew = some w → w.InRange) (hx : ∀ x, t.step = some x → x.ok c) : CivilTimeOk t := by
  refine ⟨⟨fun h => ?_, hw⟩, hrun, hcyc, fun c' h => ?_⟩
  · rw [hc] at h
    cases h
  · rw [hc, Option.some.injEq] at h
    exact h ▸ ⟨hwf, hx⟩

/-- What keeps time keeps the invariant. -/
theorem TimeKept.civilTimeOk {s t : State} (h : TimeKept s t) (hs : CivilTimeOk s) : CivilTimeOk t := by
  have hrun : t.runTime < Config.runTimeLimit := h.runTime ▸ hs.runTime_lt
  have hcyc : t.refclkCycles < Config.cyclesPerAdvance := h.refclkCycles ▸ hs.refclkCycles_lt
  cases hc : s.civil with
  | none =>
    obtain ⟨hw, hx⟩ := hs.unset hc
    exact civilTimeOk_of_unset hrun hcyc (h.civil.trans hc) (h.slew.trans hw) (h.step.elim (·.trans hx) id)
  | some c =>
    refine civilTimeOk_of_valid hrun hcyc (h.civil.trans hc) (hs.wellFormed hc)
      (fun w hw => hs.slew_inRange (h.slew.symm.trans hw)) (fun x hx => ?_)
    rcases h.step with e | e
    · exact hs.step_ok hc (e.symm.trans hx)
    · rw [e] at hx
      cases hx

/-! ### Advances -/

theorem State.tick_clock (s : State) :
    s.tick.runTime < Config.runTimeLimit ∧ s.tick.refclkCycles = 0 ∧ s.tick.rstN = s.rstN ∧ s.tick.civil = s.civil ∧
    s.tick.slew = s.slew ∧ s.tick.step = s.step := by
  unfold State.tick
  split
  · next h => exact ⟨h, rfl, rfl, rfl, rfl, rfl⟩
  · exact ⟨(Config.runTimePastEnd s.freeCount).isLt, rfl, rfl, rfl, rfl, rfl⟩

theorem advanceAmount_le (slew : Option Slew) : advanceAmount slew ≤ 2 := by
  unfold advanceAmount
  split
  · omega
  · next w =>
    split
    · rcases Int.sign_trichotomy w.remaining with h | h | h <;> rw [h] <;> decide
    · omega

/-- An adjusted advance leaves a slew in its range, one µs nearer to its end. -/
theorem Slew.InRange.counted {w v : Slew} (h : w.InRange) (hv : w.counted = some v) : v.InRange := by
  obtain ⟨hlo, hhi, hrate, hrate', hint, hcount⟩ := h
  have hsign : (w.remaining - w.remaining.sign).natAbs ≤ w.remaining.natAbs := by
    rcases lt_trichotomy w.remaining 0 with hneg | hzero | hpos
    · rw [Int.sign_eq_neg_one_of_neg hneg]
      omega
    · omega
    · rw [Int.sign_eq_one_of_pos hpos]
      omega
  unfold Slew.counted Slew.adjusts at hv
  split at hv
  · split at hv
    · cases hv
    · next hne =>
      cases hv
      refine ⟨?_, hsign.trans hhi, hrate, hrate', hint, Nat.zero_lt_of_lt hcount⟩
      change 1 ≤ (w.remaining - w.remaining.sign).natAbs
      omega
  · next hadj =>
    rw [decide_eq_true_eq] at hadj
    cases hv
    exact ⟨hlo, hhi, hrate, hrate', hint, Nat.lt_of_not_le hadj⟩

/-- A pending step told of an advance still has its result in the range: the boundary it waits for is the same, or is the
one just reached. -/
theorem PendingStep.ok_told {x : PendingStep} {c : Civil} {n : Nat} (hx : x.ok c) (hr : x.reached = none) :
    (x.told c (c.advance n) n).ok (c.advance n) := by
  simp only [PendingStep.ok, hr] at hx
  obtain ⟨hyear, hrange⟩ := hx
  unfold PendingStep.told
  cases h : c.crossesSecond n with
  | true => simpa only [PendingStep.ok, if_true, Civil.wholeSecond_advance h] using hrange
  | false => simpa [PendingStep.ok, hr, Civil.targetBoundary_advance h] using And.intro hyear hrange

/-- An invalidation leaves the clock, and nothing of civil time. -/
theorem State.invalidate_timeKept (s : State) (cause : ChangeCause) (p : Option Port) :
    TimeKept (s.setCivilTime none none none) (s.invalidate cause p) :=
  .of_shell ((State.shell_offerEach _ _).trans (State.shell_sleepPatterns _))

theorem State.unset_civilTimeOk {s : State} (hrun : s.runTime < Config.runTimeLimit)
    (hcyc : s.refclkCycles < Config.cyclesPerAdvance) : CivilTimeOk (s.setCivilTime none none none) :=
  civilTimeOk_of_unset hrun hcyc rfl rfl rfl

/-- Civil time set to a well-formed record, without slew or step. -/
theorem State.set_civilTimeOk {s : State} {new : Civil} (hs : CivilTimeOk s) (hnew : new.wellFormed = true) :
    CivilTimeOk (s.setCivilTime (some new) none none) :=
  civilTimeOk_of_valid hs.runTime_lt hs.refclkCycles_lt rfl hnew (fun _ hw => by cases hw) (fun _ hx => by cases hx)

theorem State.advanceTime_civilTimeOk {s : State} (hs : CivilTimeOk s) (hset : s.settled = true) :
    CivilTimeOk s.advanceTime := by
  obtain ⟨hrun, hcyc, -, hcivil, hslew, hstep⟩ := s.tick_clock
  have hcyc : s.tick.refclkCycles < Config.cyclesPerAdvance := hcyc ▸ (by decide)
  cases hc : s.civil with
  | none =>
    obtain ⟨hw, hx⟩ := hs.unset hc
    rw [State.advanceTime_unset hc]
    exact civilTimeOk_of_unset hrun hcyc (hcivil.trans hc) (hslew.trans hw) (hstep.trans hx)
  | some c =>
    have hn : advanceAmount s.slew < 1000000 := Nat.lt_of_le_of_lt (advanceAmount_le _) (by decide)
    by_cases hy : (c.advance (advanceAmount s.slew)).year ≤ 2199
    · have hmoved : CivilTimeOk (s.tick.setCivilTime (some (c.advance (advanceAmount s.slew))) (s.slew.bind Slew.counted)
          (s.step.map (fun x => x.told c (c.advance (advanceAmount s.slew)) (advanceAmount s.slew)))) := by
        refine civilTimeOk_of_valid hrun hcyc rfl (Civil.advance_wellFormed (hs.wellFormed hc) hn hy) ?_ ?_
        · intro v hv
          obtain ⟨w, hw, hwv⟩ := Option.bind_eq_some_iff.1 hv
          exact (hs.slew_inRange hw).counted hwv
        · intro y hy
          obtain ⟨x, hx, rfl⟩ := Option.map_eq_some_iff.1 hy
          obtain ⟨-, -, -, -, -, -, -, hreached⟩ := (State.settled_iff s).1 hset
          rw [hx, Option.bind_some] at hreached
          exact PendingStep.ok_told (hs.step_ok hc hx) hreached
      rw [State.advanceTime_valid hc hy]
      dsimp only
      split
      · exact (TimeKept.offerEach _ _).civilTimeOk hmoved
      · exact hmoved
    · rw [State.advanceTime_end hc (by omega)]
      exact (s.tick.invalidate_timeKept .calendarEnd none).civilTimeOk (State.unset_civilTimeOk hrun hcyc)

theorem State.takeAdvance_civilTimeOk {s : State} (hs : CivilTimeOk s) (hset : s.settled = true) :
    CivilTimeOk s.takeAdvance :=
  (TimeKept.setReached _ _).civilTimeOk (State.advanceTime_civilTimeOk hs hset)

/-! ### Changes of civil time -/

/-- A move of civil time leaves the clock and sets civil time, without slew or step. -/
theorem State.moveCivil_timeKept (s : State) (old new : Civil) (cancelled : Option PendingStep) (reason : ChangeReason)
    (p : Port) (offset : Int) :
    TimeKept (s.setCivilTime (some new) none none) (s.moveCivil old new cancelled reason p offset) := by
  refine .of_shell ?_
  rw [State.moveCivil_eq, State.shell_offerEach, State.shell_stepPatterns, State.shell_offerEach]
  rfl

theorem State.moveCivil_civilTimeOk {s : State} {new : Civil} (hs : CivilTimeOk s) (hnew : new.wellFormed = true)
    (old : Civil) (cancelled : Option PendingStep) (reason : ChangeReason) (p : Port) (offset : Int) :
    CivilTimeOk (s.moveCivil old new cancelled reason p offset) :=
  (s.moveCivil_timeKept old new cancelled reason p offset).civilTimeOk (State.set_civilTimeOk hs hnew)

/-- A shift of civil time that stays in the civil range gives a well-formed record. -/
theorem Civil.ofCount_wellFormed_of_range {n : Int} (h : inCivilRange n = true) :
    (Civil.ofCount n.toNat).wellFormed = true := by
  simp only [inCivilRange, Bool.and_eq_true, decide_eq_true_eq] at h
  exact (Civil.ofCount_spec (by omega)).1

theorem decodeCivil_wellFormed {args : List Byte} {c : Civil} (h : decodeCivil args = some c) : c.wellFormed = true := by
  unfold decodeCivil at h
  dsimp only at h
  split at h
  · next hwf =>
    cases h
    exact hwf
  · cases h

/-- SET_CIVIL leaves the clock and sets civil time, without slew or step. -/
theorem State.setCivil_timeKept (s : State) (p : Port) (new : Civil) :
    TimeKept (s.setCivilTime (some new) none none) (s.setCivil p new) := by
  unfold State.setCivil
  split
  · exact .of_shell ((State.shell_offerEach _ _).trans (State.shell_wakePatterns _ _))
  · exact s.moveCivil_timeKept _ _ _ _ _ _

theorem State.stepCivil_civilTimeOk {s : State} (hs : CivilTimeOk s) (p : Port) (offset : Int) (mode : Byte) :
    CivilTimeOk (s.stepCivil p offset mode).1 := by
  unfold State.stepCivil
  split
  · exact hs
  · split
    · exact hs
    · exact hs
    · next old hc hx =>
      split
      · unfold State.stepNow
        split
        · next hrange => exact State.moveCivil_civilTimeOk hs (Civil.ofCount_wellFormed_of_range hrange) _ _ _ _ _
        · exact hs
      · unfold State.stepAtSecond
        split
        · next hok =>
          rw [Bool.and_eq_true, decide_eq_true_eq] at hok
          refine civilTimeOk_of_valid hs.runTime_lt hs.refclkCycles_lt hc (hs.wellFormed hc)
            (fun w hw => hs.slew_inRange hw) (fun x hx => ?_)
          cases hx
          exact hok
        · exact hs

/-- R33: a slew is started with its whole offset, the interval of its rate and no advance counted. -/
theorem State.slewCivil_civilTimeOk {s : State} (hs : CivilTimeOk s) (p : Port) (offset : Int) (rate : Nat) :
    CivilTimeOk (s.slewCivil p offset rate).1 := by
  unfold State.slewCivil
  split
  · next hok =>
    obtain ⟨hlo, hhi, hrate, hrate'⟩ := hok
    split
    · exact hs
    · next c hc =>
      have hpos : 0 < 1000000 / rate := Nat.div_pos (by omega) hrate
      refine civilTimeOk_of_valid hs.runTime_lt hs.refclkCycles_lt hc (hs.wellFormed hc) (fun w hw => ?_)
        (fun x hx => hs.step_ok hc hx)
      cases hw
      exact ⟨hlo, hhi, hrate, hrate', rfl, hpos⟩
  · exact hs

/-- The result of the pending step is in the range when its boundary is reached. -/
theorem State.applyPending_civilTimeOk {s : State} {c b : Civil} {x : PendingStep} (hs : CivilTimeOk s)
    (hc : s.civil = some c) (hx : s.step = some x) (hb : x.reached = some b) : CivilTimeOk (s.applyPending x b c) := by
  have hok := hs.step_ok hc hx
  simp only [PendingStep.ok, hb] at hok
  exact State.moveCivil_civilTimeOk hs (Civil.ofCount_wellFormed_of_range hok) _ _ _ _ _

/-! ### The commands of RST_N -/

/-- While RST_N is low a command other than the two of the pin changes nothing. -/
theorem exec_of_low {c : Instr} {s : State} (hr : s.rstN = false) (hd : c ≠ .deviceReset)
    (hrel : ∀ r1 r0 c0 c1 c2 c3, c ≠ .resetRelease r1 r0 c0 c1 c2 c3) : exec c s = .next s := by
  cases c with
  | deviceReset => exact absurd rfl hd
  | resetRelease r1 r0 c0 c1 c2 c3 => exact absurd rfl (hrel r1 r0 c0 c1 c2 c3)
  | _ =>
    unfold exec
    exact whenReleased_low hr

/-- R130: the inputs once the first level has been seen on each capture pin. -/
def State.firstSeen (s : State) (cap0 cap1 cap2 cap3 : Level) : Vector InputState 4 :=
  (((s.inputs.set (0 : Input) { s.input 0 with seen := some cap0 }).set (1 : Input)
    { s.input 1 with seen := some cap1 }).set (2 : Input) { s.input 2 with seen := some cap2 }).set (3 : Input)
    { s.input 3 with seen := some cap3 }

/-- The state that RESET_RELEASE makes: the pin, the straps and the inputs. -/
def State.released (s : State) (rate1 rate0 : Bool) (inputs : Vector InputState 4) : State :=
  { s with rstN := true, rate1 := rate1, rate0 := rate0, inputs := inputs }

theorem exec_resetRelease (s : State) (r1 r0 : Bool) (c0 c1 c2 c3 : Level) :
    exec (.resetRelease r1 r0 c0 c1 c2 c3) s =
      .next (if s.rstN then s else s.released r1 r0 (s.firstSeen c0 c1 c2 c3)) := by
  unfold exec execResetRelease State.setInput
  rfl

theorem exec_deviceReset (s : State) :
    exec .deviceReset s = .next { State.reset with freeCount := s.freeCount, pending := s.pending } := by
  unfold exec execDeviceReset
  rfl

theorem State.deviceReset_civilTimeOk (s : State) :
    CivilTimeOk { State.reset with freeCount := s.freeCount, pending := s.pending } :=
  civilTimeOk_of_unset (show 0 < Config.runTimeLimit by decide) (show 0 < Config.cyclesPerAdvance by decide) rfl rfl rfl

theorem State.released_civilTimeOk {s : State} (hs : CivilTimeOk s) (r1 r0 : Bool) (inputs : Vector InputState 4) :
    CivilTimeOk (s.released r1 r0 inputs) := by
  unfold CivilTimeOk CorrectionsOk TimeOk at *
  exact hs

/-! ### Every step -/

/-- A command that moves time keeps the invariant. -/
theorem exec_movesTime_civilTimeOk {c : Instr} {s t : State} (hc : movesTime c = true) (hr : s.rstN = true)
    (hs : CivilTimeOk s) (h : exec c s = .next t) : CivilTimeOk t := by
  have key : ∀ u : State, exec c s = .next u → CivilTimeOk u → CivilTimeOk t := fun u => of_exec_eq h
  have blind : LinkBlind (fun s t => CivilTimeOk s → CivilTimeOk t) :=
    ⟨fun _ h => h, fun h k hs => k (h hs), fun s p x => (TimeKept.setLink s p x).civilTimeOk⟩
  cases c with
  | runTimeAdvance =>
    refine key _ (execRunTimeAdvance_released hr) ?_
    split
    · next hset => exact State.takeAdvance_civilTimeOk hs hset
    · exact hs
  | adjustedAdvance =>
    refine key _ (execAdjustedAdvance_released hr) ?_
    split
    · next hset => exact State.takeAdvance_civilTimeOk hs (Bool.and_eq_true_iff.1 hset).1
    · exact hs
  | calendarEnd =>
    refine key _ (execCalendarEnd_released hr) ?_
    split
    · next hset => exact State.takeAdvance_civilTimeOk hs (Bool.and_eq_true_iff.1 hset).1
    · exact hs
  | secondBoundary =>
    refine key _ (execSecondBoundary_released hr) ?_
    split
    · next held x hheld hx =>
      split
      · next b hb => exact State.applyPending_civilTimeOk hs hheld hx hb
      · exact hs
    · exact hs
  | setCivil p =>
    refine key _ (execSetCivil_released p hr) (blind.serve (blind.civilChange p 12 fun args t ht => ?_) s p _ hs)
    split
    · exact ht
    · next new hnew => exact (t.setCivil_timeKept p new).civilTimeOk (State.set_civilTimeOk ht (decodeCivil_wellFormed hnew))
  | stepCivil p =>
    exact key _ (execStepCivil_released p hr)
      (blind.serve (blind.civilChange p 9 fun _ _ ht => State.stepCivil_civilTimeOk ht p _ _) s p _ hs)
  | slewCivil p =>
    exact key _ (execSlewCivil_released p hr)
      (blind.serve (blind.civilChange p 6 fun _ _ ht => State.slewCivil_civilTimeOk ht p _ _) s p _ hs)
  | invalidateCivil p =>
    refine key _ (execInvalidateCivil_released p hr) (blind.serve (blind.civilChange p 0 fun _ t ht => ?_) s p _ hs)
    split
    · exact ht
    · exact (t.invalidate_timeKept _ _).civilTimeOk (State.unset_civilTimeOk ht.runTime_lt ht.refclkCycles_lt)
  | deviceReset =>
    exact key _ (exec_deviceReset s) s.deviceReset_civilTimeOk
  | resetRelease r1 r0 c0 c1 c2 c3 =>
    refine key _ (exec_resetRelease s r1 r0 c0 c1 c2 c3) ?_
    rw [if_pos hr]
    exact hs
  | _ => cases hc

/-- A command given while RST_N is low keeps the invariant. -/
theorem exec_low_civilTimeOk {c : Instr} {s : State} (hr : s.rstN = false) (hs : CivilTimeOk s) :
    ∃ t : State, exec c s = .next t ∧ CivilTimeOk t := by
  cases c with
  | deviceReset => exact ⟨_, exec_deviceReset s, s.deviceReset_civilTimeOk⟩
  | resetRelease r1 r0 c0 c1 c2 c3 =>
    refine ⟨_, exec_resetRelease s r1 r0 c0 c1 c2 c3, ?_⟩
    split
    · exact hs
    · exact State.released_civilTimeOk hs r1 r0 _
  | _ => exact ⟨s, exec_of_low hr (by simp) (by simp), hs⟩

theorem exec_civilTimeOk {c : Instr} {s t : State} (hs : CivilTimeOk s) (h : exec c s = .next t) : CivilTimeOk t := by
  cases hr : s.rstN with
  | true =>
    cases hc : movesTime c with
    | true => exact exec_movesTime_civilTimeOk hc hr hs h
    | false => exact (exec_timeKept hc hr h).civilTimeOk hs
  | false =>
    obtain ⟨u, hu, hok⟩ := exec_low_civilTimeOk (c := c) hr hs
    exact of_exec_eq h hu hok

/-- Settles O57: a REFCLK cycle below the tenth and the queue of commands are nothing to the invariant, and every command
keeps it: those of `movesTime` one by one, all others because they keep time. -/
theorem civilTimeInvariant : Obligations.CivilTimeInvariant := by
  intro s t hcorr htime h
  refine step_keeps (Inv := CivilTimeOk) (fun s q hs => hs) (fun s hs hcyc => ?_)
    (fun c s t hs h => exec_civilTimeOk hs h) s t ⟨hcorr, htime⟩ h
  obtain ⟨hcorr, hrun, -, hcivil⟩ := hs
  exact ⟨hcorr, hrun, hcyc, hcivil⟩

end Sys2Proof.Machine
end

section
/-! SUPPORT. RST_N: only a device reset takes it low, and what holds while it is low (R1, R17, R128, R144, R145, R162,
R193).
-/

namespace Sys2Proof.Machine

/-! ### No command but DEVICE_RESET takes RST_N low -/

theorem State.advanceTime_rstN (s : State) : s.advanceTime.rstN = s.rstN := by
  obtain ⟨-, -, htick, -⟩ := s.tick_clock
  cases hc : s.civil with
  | none => rw [State.advanceTime_unset hc, htick]
  | some c =>
    by_cases hy : (c.advance (advanceAmount s.slew)).year ≤ 2199
    · rw [State.advanceTime_valid hc hy]
      dsimp only
      split
      · exact (State.offerEach_rstN _ _).trans htick
      · exact htick
    · rw [State.advanceTime_end hc (by omega)]
      exact (s.tick.invalidate_timeKept _ _).rstN.trans htick

theorem State.stepCivil_rstN (s : State) (p : Port) (offset : Int) (mode : Byte) :
    (s.stepCivil p offset mode).1.rstN = s.rstN := by
  unfold State.stepCivil
  split
  · rfl
  · split
    · rfl
    · rfl
    · split
      · unfold State.stepNow
        split
        · exact (s.moveCivil_timeKept _ _ _ _ _ _).rstN
        · rfl
      · unfold State.stepAtSecond
        split <;> rfl

theorem State.slewCivil_rstN (s : State) (p : Port) (offset : Int) (rate : Nat) :
    (s.slewCivil p offset rate).1.rstN = s.rstN := by
  unfold State.slewCivil
  split
  · split <;> rfl
  · rfl

theorem exec_rstN {c : Instr} {s t : State} (hr : s.rstN = true) (hd : c ≠ .deviceReset) (h : exec c s = .next t) :
    t.rstN = true := by
  have key : ∀ u : State, exec c s = .next u → u.rstN = s.rstN → t.rstN = true := fun u hu hk =>
    of_exec_eq (P := fun u => u.rstN = true) h hu (hk.trans hr)
  have blind : LinkBlind (fun s t => t.rstN = s.rstN) := ⟨fun _ => rfl, fun h k => k.trans h, fun _ _ _ => rfl⟩
  cases hc : movesTime c with
  | false => exact (exec_timeKept hc hr h).rstN.trans hr
  | true =>
    cases c with
    | deviceReset => exact absurd rfl hd
    | runTimeAdvance =>
      refine key _ (execRunTimeAdvance_released hr) ?_
      split
      · exact s.advanceTime_rstN
      · rfl
    | adjustedAdvance =>
      refine key _ (execAdjustedAdvance_released hr) ?_
      split
      · exact s.advanceTime_rstN
      · rfl
    | calendarEnd =>
      refine key _ (execCalendarEnd_released hr) ?_
      split
      · exact s.advanceTime_rstN
      · rfl
    | secondBoundary =>
      refine key _ (execSecondBoundary_released hr) ?_
      split
      · split
        · exact (s.moveCivil_timeKept _ _ _ _ _ _).rstN
        · rfl
      · rfl
    | setCivil p =>
      refine key _ (execSetCivil_released p hr) (blind.serve (blind.civilChange p 12 fun args t => ?_) s p _)
      split
      · rfl
      · exact (t.setCivil_timeKept p _).rstN
    | stepCivil p =>
      exact key _ (execStepCivil_released p hr)
        (blind.serve (blind.civilChange p 9 fun _ t => t.stepCivil_rstN p _ _) s p _)
    | slewCivil p =>
      exact key _ (execSlewCivil_released p hr)
        (blind.serve (blind.civilChange p 6 fun _ t => t.slewCivil_rstN p _ _) s p _)
    | invalidateCivil p =>
      refine key _ (execInvalidateCivil_released p hr) (blind.serve (blind.civilChange p 0 fun _ t => ?_) s p _)
      split
      · rfl
      · exact (t.invalidate_timeKept _ _).rstN
    | resetRelease r1 r0 c0 c1 c2 c3 =>
      refine key _ (exec_resetRelease s r1 r0 c0 c1 c2 c3) ?_
      rw [if_pos hr]
    | _ => cases hc

theorem State.refclk_rstN (s : State) : s.refclk.rstN = s.rstN := by
  unfold State.refclk
  split
  · split
    · rfl
    · split
      · exact s.advanceTime_rstN
      · rfl
  · rfl

/-! ### While RST_N is low -/

theorem resetOk_of_high {t : State} (h : t.rstN = true) : ResetOk t := fun hl => by
  rw [h] at hl
  cases hl

theorem resetOk_deviceReset (n : Nat) (q : List Instr) : ResetOk { State.reset with freeCount := n, pending := q } :=
  fun _ => rfl

/-- The queue of commands is nothing to the reset values. -/
theorem ResetOk.setPending {s : State} (h : ResetOk s) (q : List Instr) : ResetOk { s with pending := q } := fun hl => by
  rw [h hl]

/-- A command keeps the reset values for as long as RST_N is low. -/
theorem exec_resetOk {c : Instr} {s t : State} (hs : ResetOk s) (h : exec c s = .next t) : ResetOk t := by
  by_cases hd : c = .deviceReset
  · rw [hd, exec_deviceReset, Host.Outcome.next.injEq] at h
    exact h ▸ resetOk_deviceReset _ _
  · cases hr : s.rstN with
    | true => exact resetOk_of_high (exec_rstN hr hd h)
    | false =>
      by_cases hrel : ∀ r1 r0 c0 c1 c2 c3, c ≠ .resetRelease r1 r0 c0 c1 c2 c3
      · rw [exec_of_low hr hd hrel, Host.Outcome.next.injEq] at h
        exact h ▸ hs
      · push Not at hrel
        obtain ⟨r1, r0, c0, c1, c2, c3, rfl⟩ := hrel
        rw [exec_resetRelease, hr, Host.Outcome.next.injEq] at h
        exact resetOk_of_high (h ▸ rfl)

/-- Settles O4: the commands that are not of the pin wait for RST_N high; a step is such a command, one of the pin, or a
REFCLK cycle, which passes unseen while RST_N is low. -/
theorem nothingHappensInReset : Obligations.NothingHappensInReset := by
  refine ⟨fun s c hr hd hrel => exec_of_low hr hd hrel, fun s t hs h => ?_⟩
  unfold step at h
  split at h
  · next c rest _ => exact exec_resetOk (hs.setPending rest) h
  · rw [Host.Outcome.next.injEq] at h
    subst h
    cases hr : s.rstN with
    | true => exact resetOk_of_high (s.refclk_rstN.trans hr)
    | false =>
      have hsame : s.refclk = s := by simp [State.refclk, hr]
      exact hsame.symm ▸ hs

end Sys2Proof.Machine
end

section
/-! SUPPORT. Ends of durations, the reset values, READ_TIME, the second boundary and SET_CIVIL (R1, R3, R12, R15, R26, R27,
R30, R130).
-/

namespace Sys2Proof.Machine

/-! ### Durations (R3) -/

/-- Settles O6: both the sum and the free value are 64-bit values. -/
theorem endsOfDurations : Obligations.EndsOfDurations := by
  refine ⟨fun t d h => if_pos h, fun t d => ?_⟩
  unfold endInstant
  split
  · next h => exact h
  · exact (Config.durationPastEnd t d).isLt

/-! ### The reset values (R1, R17, R42, R128, R144, R145, R162, R193) -/

section Reset

variable (p : Port) (id : EntryId) (l : Line) (i : Input)

theorem State.reset_port : State.reset.port p = PortState.reset := by simp [State.port, State.reset]

theorem State.reset_slot : State.reset.slot id = Slot.reset := by simp [State.slot, State.reset]

theorem State.reset_line : State.reset.line l = LineState.reset := by simp [State.line, State.reset]

theorem State.reset_input : State.reset.input i = InputState.reset := by simp [State.input, State.reset]

theorem State.reset_heldBy : State.reset.heldBy p = 0 := by simp [State.heldBy, State.reset]

theorem State.reset_waiters : State.reset.waiters[p] = false := by simp [State.reset]

theorem State.reset_entriesOf : State.reset.entriesOf p = [] := by
  simp [State.entriesOf, State.reset_slot, Slot.reset]

end Reset

/-- R130: the seen level of each input is the one given for its pin. -/
theorem State.input_released (s : State) (r1 r0 : Bool) (c0 c1 c2 c3 : Level) :
    (s.released r1 r0 (s.firstSeen c0 c1 c2 c3)).input 0 = { s.input 0 with seen := some c0 } ∧
    (s.released r1 r0 (s.firstSeen c0 c1 c2 c3)).input 1 = { s.input 1 with seen := some c1 } ∧
    (s.released r1 r0 (s.firstSeen c0 c1 c2 c3)).input 2 = { s.input 2 with seen := some c2 } ∧
    (s.released r1 r0 (s.firstSeen c0 c1 c2 c3)).input 3 = { s.input 3 with seen := some c3 } := by
  simp [State.input, State.released, State.firstSeen]

/-- Settles O3: `exec_deviceReset` and `exec_resetRelease` name the states, whose fields are then read off. -/
theorem deviceResetAndItsRelease : Obligations.DeviceResetAndItsRelease := by
  refine ⟨fun s => ⟨_, exec_deviceReset s, rfl, rfl, rfl, rfl, rfl, rfl, rfl, State.reset_waiters, State.reset_slot,
    State.reset_heldBy, rfl, rfl, rfl, rfl, State.reset_line, State.reset_input, fun p => ?_, rfl⟩,
    fun s r1 r0 c0 c1 c2 c3 hr => ?_⟩
  · have hport : ({ State.reset with freeCount := s.freeCount, pending := s.pending } : State).port p =
        PortState.reset := State.reset_port p
    simp only [State.link, hport]
    exact ⟨rfl, rfl, rfl, rfl, rfl, rfl, rfl, rfl, rfl, rfl, rfl⟩
  · obtain ⟨h0, h1, h2, h3⟩ := s.input_released r1 r0 c0 c1 c2 c3
    refine ⟨s.released r1 r0 (s.firstSeen c0 c1 c2 c3), ?_, rfl, rfl, rfl, h0, h1, h2, h3, rfl, rfl, ⟨rfl, rfl, rfl⟩,
      ⟨rfl, rfl⟩, ⟨rfl, rfl, rfl⟩, ⟨rfl, rfl, rfl⟩, rfl, rfl, ⟨rfl, rfl⟩⟩
    rw [exec_resetRelease, hr]
    rfl

theorem PortState.reset_ok : PortState.reset.ok := by
  refine ⟨⟨by decide, fun i h => absurd h (Nat.not_lt_zero i), by decide, fun r h => absurd h List.not_mem_nil⟩,
    ⟨⟨by decide, by decide, by decide, by decide⟩, by decide, rfl, rfl, rfl, rfl, rfl⟩,
    ⟨fun _ => ⟨rfl, rfl⟩, trivial, by decide, by decide, by decide, by decide⟩, by decide⟩

/-- Settles O55, block by block from the reset values. -/
theorem invariantsAtReset : Obligations.InvariantsAtReset := by
  have hcivil : CivilTimeOk State.reset :=
    civilTimeOk_of_unset (show 0 < Config.runTimeLimit by decide) (show 0 < Config.cyclesPerAdvance by decide) rfl rfl rfl
  refine ⟨⟨State.reset_waiters, rfl⟩, hcivil.1, hcivil.2, ⟨fun l => ?_, fun i => ?_, fun h => by cases h⟩, fun p => ?_,
    ⟨fun id => ?_, List.Pairwise.nil, List.Pairwise.nil⟩, rfl, ⟨fun p => ?_, by decide, by decide⟩, fun _ => rfl⟩
  · rw [State.reset_line]
    exact ⟨rfl, rfl⟩
  · rw [State.reset_input]
    intro c h
    cases h
  · rw [State.reset_port]
    exact PortState.reset_ok
  · unfold SlotOk
    rw [State.reset_slot]
    exact ⟨rfl, rfl⟩
  · rw [State.reset_heldBy, State.reset_entriesOf]
    rfl

/-! ### READ_TIME, SECOND_BOUNDARY, SET_CIVIL -/

/-- Settles O11: the snapshot is taken after the request has left the FIFO, which no part of it shows. -/
theorem readTime : Obligations.ReadTime := by
  intro s p tag h
  have hexec := execReadTime_released p h.1
  rw [State.serve_withLength h (n := 0) rfl] at hexec
  rw [hexec]
  cases hslew : s.slew <;> cases hlease : s.lease <;>
    simp only [Reply.okWith, State.snapshot, State.takeRequest_runTime, State.takeRequest_civil, State.takeRequest_slew,
      State.takeRequest_step, State.takeRequest_lease, hslew, hlease] <;> rfl

/-- Settles O10: the event is a move of civil time (`State.moveCivil_eq`) that cancels no step. -/
theorem secondBoundary : Obligations.SecondBoundary := by
  refine fun s hr => ⟨fun held b x hheld hx hb => ?_, fun hnone => ?_⟩
  · rw [execSecondBoundary_released hr]
    simp only [hheld, hx, hb, State.applyPending, State.moveCivil_eq, stepGone, List.append_nil]
    rfl
  · rw [execSecondBoundary_released hr]
    cases hheld : s.civil with
    | none => rfl
    | some held =>
      cases hx : s.step with
      | none => rfl
      | some x =>
        rw [hx, Option.bind_some] at hnone
        simp only [hnone]

/-- The first civil time, set while UNSET, its record written out (R26). -/
theorem State.setCivil_unset {s : State} (h : s.civil = none) (p : Port) (new : Civil) :
    s.setCivil p new =
      (({ s with civil := some new, slew := none, step := none } : State).wakePatterns new).offerEach
        (fun _ => [changeRecord .set (some p) (some 0) s.runTime (some new)]) := by
  simp only [State.setCivil, h, State.broadcast, State.timeChange, State.wakePatterns_civil,
    State.wakePatterns_runTime, changeRecord]
  rfl

/-- Civil time set while VALID is moved, its records written out (R27, R39). -/
theorem State.setCivil_valid {s : State} {old : Civil} (h : s.civil = some old) (p : Port) (new : Civil) :
    s.setCivil p new =
      ((({ s with civil := some new, slew := none, step := none } : State).offerEach
          (fun _ => slewGone s.slew s.runTime (some new) ++ stepGone s.step s.runTime (some new))).stepPatterns
            old new).offerEach
        (fun _ => [changeRecord .set (some p) (some ((new.count : Int) - (old.count : Int))) s.runTime (some new)]) := by
  simp only [State.setCivil, h, State.moveCivil_eq]

/-- Settles O15: the record sent is read back (`decodeCivil_bytes`), and what setting it does is `State.setCivil_unset` or
`State.setCivil_valid`. -/
theorem setCivil : Obligations.SetCivil := by
  intro s p tag weekday new l hfits h hlease hholder t set
  have hexec := execSetCivil_released p h.1
  rw [State.serve_civilChange h (by simp [civilBytes_length]) (State.holds_of_lease hlease hholder)] at hexec
  simp only [decodeCivil_bytes new weekday hfits] at hexec
  refine ⟨fun hbad => ?_, fun hwf => ?_⟩
  · rw [hexec, hbad]
    rfl
  · have hset : exec (.setCivil p) s = .next ((t.setCivil p new).respond p tag 0x04 (Reply.plain .ok)) := by
      rw [hexec, hwf]
      rfl
    refine ⟨fun hunset => ?_, fun old hold => ?_⟩
    · rw [hset, State.setCivil_unset (show t.civil = none from hunset)]
      rfl
    · rw [hset, State.setCivil_valid (show t.civil = some old from hold)]
      rfl

end Sys2Proof.Machine
end

section
/-! SUPPORT. Advances: run time, civil time and the slew by kind of advance, the calendar end, and what an advance waits
for (R1, R3, R10 to R13, R34, R35, R37).
-/

namespace Sys2Proof.Machine

/-! ### Run time (R1) -/

theorem State.tick_eq (s : State) :
    s.tick = { s with runTime := s.tick.runTime, refclkCycles := 0, freeCount := s.tick.freeCount } := by
  unfold State.tick
  split <;> rfl

/-- Run time after an advance: one more, or past its range a free value. -/
theorem State.tick_range (s : State) :
    s.tick.runTime < 2 ^ 64 ∧
    (s.runTime + 1 < 2 ^ 64 → s.tick.runTime = s.runTime + 1 ∧ s.tick.freeCount = s.freeCount) ∧
    (2 ^ 64 ≤ s.runTime + 1 → s.tick.freeCount = s.freeCount + 1) := by
  obtain ⟨hlt, -⟩ := s.tick_clock
  exact ⟨hlt, fun h => by rw [State.tick_of_lt h]; exact ⟨rfl, rfl⟩, fun h => by rw [State.tick_of_ge h]⟩

/-! ### The slew at an advance (R34, R35) -/

theorem PendingStep.told_eq (x : PendingStep) (c : Civil) (n : Nat) :
    x.told c (c.advance n) n =
      if 1000000 ≤ c.micro + n then { x with reached := some { c.advance n with micro := 0 } } else x := by
  simp only [PendingStep.told, Civil.crossesSecond, decide_eq_true_eq, Civil.wholeSecond]

theorem Slew.adjusts_iff (w : Slew) : w.adjusts = true ↔ w.interval ≤ w.count + 1 := decide_eq_true_iff

theorem Slew.counted_of_lt {w : Slew} (h : w.count + 1 < w.interval) :
    advanceAmount (some w) = 1 ∧ w.counted = some { w with count := w.count + 1 } := by
  have hadj : ¬ w.adjusts = true := by
    rw [Slew.adjusts_iff]
    omega
  exact ⟨if_neg hadj, if_neg hadj⟩

/-- R34: an adjusted advance moves civil time by 2 or 0 and the remaining offset by one towards 0. -/
theorem Slew.counted_of_le {w : Slew} (h : w.interval ≤ w.count + 1) (h0 : w.remaining ≠ 0) :
    advanceAmount (some w) = (if 0 < w.remaining then 2 else 0) ∧
    w.counted =
      if (if 0 < w.remaining then w.remaining - 1 else w.remaining + 1) = 0 then none
      else some { w with remaining := if 0 < w.remaining then w.remaining - 1 else w.remaining + 1, count := 0 } := by
  have hadj : w.adjusts = true := (Slew.adjusts_iff w).2 h
  simp only [advanceAmount, Slew.counted, hadj, if_true]
  rcases lt_or_gt_of_ne h0 with hneg | hpos
  · simp [Int.sign_eq_neg_one_of_neg hneg, Int.not_lt.2 hneg.le]
  · simp [Int.sign_eq_one_of_pos hpos, hpos]

/-! ### Civil time at an advance (R10, R12, R13) -/

/-- An advance inside the civil range that does not end a slew. -/
theorem State.advanceTime_moved {s : State} {c : Civil} {n : Nat} {v : Option Slew} (hc : s.civil = some c)
    (hn : advanceAmount s.slew = n) (hv : s.slew.bind Slew.counted = v) (hend : s.slew = none ∨ v ≠ none)
    (hy : (c.advance n).year ≤ 2199) :
    s.advanceTime =
      { s.tick with civil := some (c.advance n), slew := v, step := s.step.map (fun x => x.told c (c.advance n) n) } := by
  subst hn
  have hnot : (s.slew.isSome && v.isNone) = false := by
    rcases hend with h | h
    · rw [h]
      rfl
    · rw [Option.isNone_eq_false_iff.2 (Option.isSome_iff_ne_none.2 h), Bool.and_false]
  rw [State.advanceTime_valid hc hy, hv]
  simp only [hnot]
  rfl

/-- An advance inside the civil range that ends its slew (R35). -/
theorem State.advanceTime_slewDone {s : State} {c : Civil} {n : Nat} {w : Slew} (hc : s.civil = some c)
    (hw : s.slew = some w) (hn : advanceAmount s.slew = n) (hv : w.counted = none) (hy : (c.advance n).year ≤ 2199) :
    s.advanceTime =
      State.offerEach
        { s.tick with
          civil := some (c.advance n), slew := none, step := s.step.map (fun x => x.told c (c.advance n) n) }
        (fun _ => [changeRecord .slewDone none none s.tick.runTime (some (c.advance n))]) := by
  subst hn
  rw [State.advanceTime_valid hc hy, hw, Option.bind_some, hv]
  rfl

theorem State.reachesCalendarEnd_eq {s : State} {c : Civil} (hc : s.civil = some c) :
    s.reachesCalendarEnd = decide (2199 < (c.advance (advanceAmount s.slew)).year) := by
  simp only [State.reachesCalendarEnd, hc]

theorem State.adjustsNext_eq {s : State} {c : Civil} {w : Slew} (hc : s.civil = some c) (hw : s.slew = some w) :
    s.adjustsNext = w.adjusts := by
  simp only [State.adjustsNext, hc, hw]

/-- An advance that does not reach the calendar end leaves the MONO due list. -/
theorem State.advanceTime_mono {s : State} (h : s.reachesCalendarEnd = false) :
    s.advanceTime.mono = s.mono ∧ s.advanceTime.runTime = s.tick.runTime := by
  have htick : s.tick.mono = s.mono := by rw [State.tick_eq]
  cases hc : s.civil with
  | none =>
    rw [State.advanceTime_unset hc]
    exact ⟨htick, rfl⟩
  | some c =>
    rw [State.reachesCalendarEnd_eq hc, decide_eq_false_iff_not, Nat.not_lt] at h
    rw [State.advanceTime_valid hc h]
    dsimp only
    split
    · exact ⟨(State.offerEach_mono _ _).trans htick, State.offerEach_runTime _ _⟩
    · exact ⟨htick, rfl⟩

/-! ### The three commands of an advance -/

theorem execRunTimeAdvance_settled {s : State} (hr : s.rstN = true) (h : s.settled = true) :
    exec .runTimeAdvance s = .next (s.advanceTime.setReached (reachedHeads s s.advanceTime)) := by
  rw [execRunTimeAdvance_released hr, if_pos h, State.takeAdvance_eq]

/-- The adjusted advance is the advance where the slew adjusts it. -/
theorem execRunTimeAdvance_eq_adjusted {s : State} (h : s.adjustsNext = true) :
    exec .runTimeAdvance s = exec .adjustedAdvance s := by
  cases hr : s.rstN with
  | true => rw [execRunTimeAdvance_released hr, execAdjustedAdvance_released hr, h, Bool.and_true]
  | false => rw [exec_of_low hr (by simp) (by simp), exec_of_low hr (by simp) (by simp)]

/-- The calendar end is the advance where civil time reaches it. -/
theorem execRunTimeAdvance_eq_calendarEnd {s : State} (h : s.reachesCalendarEnd = true) :
    exec .runTimeAdvance s = exec .calendarEnd s := by
  cases hr : s.rstN with
  | true => rw [execRunTimeAdvance_released hr, execCalendarEnd_released hr, h, Bool.and_true]
  | false => rw [exec_of_low hr (by simp) (by simp), exec_of_low hr (by simp) (by simp)]

/-! ### What an advance waits for, written out -/

/-- R181: no gap of more than 1,000 µs stands at the port. -/
theorem Link.gapOver_eq_false_iff (l : Link) (now : Nat) :
    l.gapOver now = false ↔
      ∀ g : Nat, l.arriving = none → (l.rx = .length g ∨ ∃ len chars, l.rx = .body len chars g) → now ≤ g + 1000 := by
  rw [← Bool.not_eq_true, Link.gapOver_iff]
  simp only [Config.gapLimit, not_and, not_exists, Nat.not_lt]
  exact ⟨fun h g ha hg => h ha g hg, fun h ha g hg => h g ha hg⟩

/-- R184: no space level of 2,000 µs stands at the port. -/
theorem Link.spaceLong_eq_false_iff (l : Link) (now : Nat) :
    l.spaceLong now = false ↔ ∀ t : Nat, l.spaceSince = some t → now < t + 2000 := by
  rw [← Bool.not_eq_true, Link.spaceLong_iff]
  simp only [Config.breakTime, not_exists, not_and, Nat.not_le]

theorem laterThan_map_iff {α : Type} (now : Nat) (o : Option α) (f : α → Nat) :
    laterThan now (o.map f) = true ↔ ∀ x : α, o = some x → now < f x := by
  cases o <;> simp [laterThan]

theorem laterThan_bind_iff {α : Type} (now : Nat) (o : Option α) (f : α → Option Nat) :
    laterThan now (o.bind f) = true ↔ ∀ (x : α) (t : Nat), o = some x → f x = some t → now < t := by
  simp only [laterThan_iff, Option.bind_eq_some_iff]
  exact ⟨fun h x t hx ht => h t ⟨x, hx, ht⟩, fun h t ⟨x, hx, ht⟩ => h x t hx ht⟩

theorem State.monoDue_eq_false_iff (s : State) :
    s.monoDue = false ↔ ∀ (x : MonoPos) (rest : List MonoPos), s.mono = x :: rest → s.runTime < x.due := by
  rw [← Bool.not_eq_true, State.monoDue_iff]
  simp only [not_exists, not_and, Nat.not_le]

theorem State.civilDue_eq_false_iff (s : State) :
    s.civilDue = false ↔ ∀ (c : Civil) (x : CivilPos) (rest : List CivilPos), s.civil = some c → s.civils = x :: rest →
      c.count < x.next.count := by
  rw [← Bool.not_eq_true, State.civilDue_iff]
  simp only [not_exists, not_and, Nat.not_le]
  exact ⟨fun h c x rest hc hx => h x rest c hx hc, fun h x rest c hx hc => h c x rest hc hx⟩

theorem bind_reached_eq_none_iff (o : Option PendingStep) :
    o.bind (fun x => x.reached) = none ↔ ∀ x : PendingStep, o = some x → x.reached = none := by
  cases o <;> simp

/-- The conditions of `State.settled` as the statement gives them. -/
theorem State.settled_iff_written_out (s : State) :
    s.settled = true ↔
      (∀ x ∈ s.mono, x.late = false → s.runTime + 1 < x.due + 100) ∧
      (∀ l : Lease, s.lease = some l → s.runTime < l.expiry) ∧
      (∀ (l : Line) (x : PulseEnd), (s.line l).pulse = some x → s.runTime < x.endAt) ∧
      (∀ (i : Input) (c : InputClaim) (t : Nat), (s.input i).claim = some c → c.holdoffEnd = some t →
        s.runTime < t) ∧
      (∀ (p : Port) (t : Nat), (s.port p).engine.ackEnd = some t → s.runTime < t) ∧
      (∀ (p : Port) (t : Nat), (s.port p).engine.backoffEnd = some t → s.runTime < t) ∧
      (∀ (p : Port) (g : Nat), (s.link p).arriving = none →
        ((s.link p).rx = .length g ∨ ∃ len chars, (s.link p).rx = .body len chars g) → s.runTime ≤ g + 1000) ∧
      (∀ (p : Port) (t : Nat), (s.link p).spaceSince = some t → s.runTime < t + 2000) ∧
      (∀ x : PendingStep, s.step = some x → x.reached = none) ∧
      (s.reached.mono = true → ∀ (x : MonoPos) (rest : List MonoPos), s.mono = x :: rest → s.runTime < x.due) ∧
      (s.reached.civil = true → ∀ (c : Civil) (x : CivilPos) (rest : List CivilPos), s.civil = some c →
        s.civils = x :: rest → c.count < x.next.count) := by
  simp only [State.settled_iff, State.monoDue_eq_false_iff, State.civilDue_eq_false_iff, State.lagWithin_iff,
    laterThan_map_iff, laterThan_bind_iff, Link.gapOver_eq_false_iff, Link.spaceLong_eq_false_iff,
    bind_reached_eq_none_iff, Config.firingLag]
  simp only [laterThan_iff]
  constructor
  · rintro ⟨hmono, hcivil, hlag, hlease, hlines, hinputs, hports, hstep⟩
    obtain ⟨hack, hports⟩ := forall_and.1 hports
    obtain ⟨hbackoff, hports⟩ := forall_and.1 hports
    obtain ⟨hgap, hspace⟩ := forall_and.1 hports
    exact ⟨hlag, hlease, hlines, hinputs, hack, hbackoff, hgap, hspace, hstep, hmono, hcivil⟩
  · rintro ⟨hlag, hlease, hlines, hinputs, hack, hbackoff, hgap, hspace, hstep, hmono, hcivil⟩
    exact ⟨hmono, hcivil, hlag, hlease, hlines, hinputs, fun p => ⟨hack p, hbackoff p, hgap p, hspace p⟩, hstep⟩

/-- The heads noted after an advance, written out (R69, R98). -/
theorem reachedHeads_mono_iff (s t : State) :
    (reachedHeads s t).mono = true ↔ ∃ x rest, t.mono = x :: rest ∧ s.runTime < x.due ∧ x.due ≤ t.runTime := by
  unfold reachedHeads
  cases t.mono <;> simp

theorem reachedHeads_civil_iff (s t : State) :
    (reachedHeads s t).civil = true ↔
      ∃ x rest old new, t.civils = x :: rest ∧ s.civil = some old ∧ t.civil = some new ∧
        old.count < x.next.count ∧ x.next.count ≤ new.count := by
  have key : ∀ (count : Civil → Nat) (xs : List CivilPos) (o n : Option Civil),
      xs.head?.any (fun x => o.any (fun c => count c < count x.next) && n.any (fun c => count x.next ≤ count c)) = true ↔
        ∃ x rest old new, xs = x :: rest ∧ o = some old ∧ n = some new ∧ count old < count x.next ∧
          count x.next ≤ count new := by
    intro count xs o n
    cases xs <;> cases o <;> cases n <;> simp
  exact key Civil.count _ _ _

/-! ### The statements -/

/-- An advance leaves every position whose late mark is clear less than 100 µs back (R79). -/
theorem State.takeAdvance_lag {s : State} (hset : s.settled = true) (hlt : s.runTime + 1 < 2 ^ 64)
    (hend : s.reachesCalendarEnd = false) :
    (s.advanceTime.setReached (reachedHeads s s.advanceTime)).mono = s.mono ∧
    ∀ x ∈ s.mono, x.late = false → (s.advanceTime.setReached (reachedHeads s s.advanceTime)).runTime < x.due + 100 := by
  obtain ⟨hmono, hrun⟩ := State.advanceTime_mono hend
  obtain ⟨-, htick, -⟩ := s.tick_range
  obtain ⟨hnow, -⟩ := htick hlt
  obtain ⟨hlag, -⟩ := (State.settled_iff_written_out s).1 hset
  refine ⟨hmono, fun x hx hl => ?_⟩
  have hbound := hlag x hx hl
  rw [← hnow, ← hrun] at hbound
  exact hbound

/-- Settles O8, by kind of advance: `State.advanceTime_unset`, `State.advanceTime_moved` and
`State.advanceTime_slewDone`. -/
theorem runTimeAndAdjustedAdvance : Obligations.RunTimeAndAdjustedAdvance := by
  refine ⟨fun s hr hset => ⟨s.tick.runTime, s.tick.freeCount, ?_⟩, fun s => ⟨fun c w hc hw hle => ?_, fun c hc hy => ?_⟩,
    fun s hr => ⟨fun hset => ?_, fun hnot => ?_⟩, fun s hr hset hlt hend => ?_, State.settled_iff_written_out,
    fun s t => ⟨reachedHeads_mono_iff s t, reachedHeads_civil_iff s t⟩⟩
  · obtain ⟨hrange, hnow, hfree⟩ := s.tick_range
    refine ⟨hrange, hnow, hfree, ?_⟩
    intro ticked noted told
    have hticked : s.tick = ticked := s.tick_eq
    have htold : ∀ (c : Civil) (n : Nat), s.step.map (fun x => x.told c (c.advance n) n) = told c n := by
      intro c n
      simp only [PendingStep.told_eq]
      rfl
    have hadvance : ∀ t : State, s.advanceTime = t → exec .runTimeAdvance s = .next (noted t) := by
      intro t ht
      rw [execRunTimeAdvance_settled hr hset, ht]
      rfl
    refine ⟨fun hc => ?_, fun c hc hy => ⟨fun hw => ?_, fun w hw hlt => ?_⟩, ?_⟩
    · exact hadvance _ ((State.advanceTime_unset hc).trans hticked)
    · refine hadvance _ ((State.advanceTime_moved hc (v := s.slew) (by rw [hw]; rfl) (by rw [hw]; rfl) (Or.inl hw)
        hy).trans ?_)
      rw [htold, hticked]
    · obtain ⟨hamount, hcounted⟩ := Slew.counted_of_lt hlt
      refine hadvance _ ((State.advanceTime_moved hc (by rw [hw, hamount]) (by rw [hw, Option.bind_some, hcounted])
        (Or.inr (by simp)) hy).trans ?_)
      rw [htold, hticked]
    · intro c w hc hw hle h0 n left moved hy
      obtain ⟨hamount, hcounted⟩ := Slew.counted_of_le hle h0
      have hadjusted : ∀ t : State, s.advanceTime = t → exec .adjustedAdvance s = .next (noted t) := by
        intro t ht
        rw [← execRunTimeAdvance_eq_adjusted ((State.adjustsNext_eq hc hw).trans ((Slew.adjusts_iff w).2 hle))]
        exact hadvance t ht
      refine ⟨fun hleft => ?_, fun hleft => ?_⟩
      · have hmore : w.counted = some { w with remaining := left, count := 0 } := hcounted.trans (if_neg hleft)
        refine hadjusted _ ((State.advanceTime_moved hc (by rw [hw, hamount]) (by rw [hw, Option.bind_some, hmore])
          (Or.inr (by simp)) hy).trans ?_)
        simp only [htold, hticked, moved, if_neg hleft]
      · have hdone : w.counted = none := hcounted.trans (if_pos hleft)
        refine hadjusted _ ((State.advanceTime_slewDone hc hw (by rw [hw, hamount]) hdone hy).trans ?_)
        simp only [htold, hticked, moved, if_pos hleft]
  · exact execRunTimeAdvance_eq_adjusted ((State.adjustsNext_eq hc hw).trans ((Slew.adjusts_iff w).2 hle))
  · exact execRunTimeAdvance_eq_calendarEnd ((State.reachesCalendarEnd_eq hc).trans (decide_eq_true hy))
  · rw [execRunTimeAdvance_released hr, hset]
    rfl
  · rw [execAdjustedAdvance_released hr, Bool.and_eq_false_iff.2 hnot]
    rfl
  · obtain ⟨hmono, hlag⟩ := State.takeAdvance_lag hset hlt hend
    exact ⟨_, execRunTimeAdvance_settled hr hset, hmono, fun x hx => hlag x (hmono ▸ hx)⟩

/-- The note of the heads reached is nothing to an invalidation. -/
theorem CivilGone.setReached {s t : State} {records : List Record} (h : CivilGone s t records) (r : Reached) :
    CivilGone (s.setReached r) (t.setReached r) records := by
  obtain ⟨hcivil, hslew, hstep, hcivils, hslots, hmono, -, hheld, hpool, hclock, hauth, hpins, hmodel, hoffered⟩ := h
  exact ⟨hcivil, hslew, hstep, hcivils, hslots, hmono, rfl, hheld, hpool, hclock, hauth, hpins, hmodel, hoffered⟩

/-- The advance at the calendar end: run time goes on, civil time is gone (R13, R37, R39). -/
theorem State.advanceTime_calendarEnd {s : State} {c : Civil} (hc : s.civil = some c)
    (hy : 2199 < (c.advance (advanceAmount s.slew)).year) :
    CivilGone s.tick s.advanceTime
      ((match s.slew with
        | some _ => [endRecord .slewCancelled s.tick.runTime]
        | none => []) ++
       (match s.step with
        | some _ => [endRecord .stepCancelled s.tick.runTime]
        | none => []) ++ [endRecord .invalidated s.tick.runTime]) := by
  obtain ⟨-, -, -, -, hslew, hstep⟩ := s.tick_clock
  rw [State.advanceTime_end hc hy, State.invalidate_calendarEnd, hslew, hstep]
  exact State.civilGone s.tick _

/-- Settles O9: at the calendar end the advance is the tick of run time and then an invalidation, which `State.civilGone`
describes. -/
theorem calendarEnd : Obligations.CalendarEnd := by
  refine ⟨fun s c hr hset hc hy => ?_, fun s hr hnot => ?_⟩
  · obtain ⟨hrange, hnow, hfree⟩ := s.tick_range
    have hexec : exec .calendarEnd s = .next (s.advanceTime.setReached (reachedHeads s s.advanceTime)) := by
      rw [← execRunTimeAdvance_eq_calendarEnd ((State.reachesCalendarEnd_eq hc).trans (decide_eq_true hy))]
      exact execRunTimeAdvance_settled hr hset
    refine ⟨_, s.tick.runTime, s.tick.freeCount, hexec, hrange, hnow, hfree, rfl, ?_⟩
    have hgone := (State.advanceTime_calendarEnd hc hy).setReached (reachedHeads s s.advanceTime)
    have hticked := congrArg (fun t : State => t.setReached (reachedHeads s s.advanceTime)) s.tick_eq
    rw [hticked] at hgone
    exact hgone
  · have hstays : (s.settled && s.reachesCalendarEnd) = false := by
      rcases hnot with hset | hunset | hinside
      · rw [hset]
        rfl
      · simp [State.reachesCalendarEnd, hunset]
      · cases hc : s.civil with
        | none => simp [State.reachesCalendarEnd, hc]
        | some c => simp [State.reachesCalendarEnd_eq hc, hinside c hc]
    rw [execCalendarEnd_released hr, hstays]
    rfl

end Sys2Proof.Machine
end

section
/-! SUPPORT. What the commands outside time and the authority leave of both: a step of the schedule table, a line, an
input, a queue or a link changes neither clock, civil time nor the authority.
-/

namespace Sys2Proof.Machine

/-- Clock, civil time, the authority and the model's own counters: everything but the schedule table, the due lists, the
lines, the inputs and the ports. -/
def State.core (s : State) : State :=
  { s.shell with inputs := State.reset.inputs, reached := State.reset.reached }

theorem State.core_of_shell {s t : State} (h : t.shell = s.shell) : t.core = s.core := by
  rw [State.core, State.core, h]

/-- The fields of the authority, read off the core. -/
theorem State.authority_of_core {s t : State} (h : t.core = s.core) : SameAuthority s t ∧ t.step = s.step := by
  have fields := fun {α : Type} (f : State → α) => congrArg f h
  exact ⟨⟨fields State.lease, fields State.waiters⟩, fields State.step⟩

/-! ### The operations of the table, the pins and the ports -/

@[simp] theorem State.core_setPort (s : State) (p : Port) (x : PortState) : (s.setPort p x).core = s.core := rfl

@[simp] theorem State.core_setLink (s : State) (p : Port) (x : Link) : (s.setLink p x).core = s.core := rfl

@[simp] theorem State.core_setLine (s : State) (l : Line) (x : LineState) : (s.setLine l x).core = s.core := rfl

@[simp] theorem State.core_setInput (s : State) (i : Input) (x : InputState) : (s.setInput i x).core = s.core := rfl

@[simp] theorem State.core_setClaim (s : State) (i : Input) (c : Option InputClaim) :
    (s.setClaim i c).core = s.core := rfl

@[simp] theorem State.core_setReached (s : State) (r : Reached) : (s.setReached r).core = s.core := rfl

/-- A change that is made only under a condition. -/
theorem State.core_ite {s t : State} (h : t.core = s.core) (c : Prop) [Decidable c] :
    (if c then t else s).core = s.core := by
  split
  · exact h
  · rfl

theorem State.core_claimInput (s : State) (p : Port) (i : Input) (mode : EdgeMode) (holdoff : Nat) :
    (s.claimInput p i mode holdoff).1.core = s.core := by
  unfold State.claimInput
  split
  · rfl
  · split <;> rfl

theorem State.core_releaseInput (s : State) (p : Port) (i : Input) : (s.releaseInput p i).1.core = s.core :=
  (State.core_setClaim _ i none).trans
    (State.core_of_shell (State.shell_foldl _ (fun t id => t.shell_endEntry id .captureLost) _ s))

theorem State.core_takeEdge (s : State) (i : Input) (pol : Polarity) : (s.takeEdge i pol).core = s.core := by
  unfold State.takeEdge
  split
  · rfl
  · next c _ =>
    split
    · split
      · exact (State.core_setClaim _ i _).trans
          (State.core_of_shell ((State.shell_foldl _ State.shell_armByEdge _ _).trans (s.shell_offer c.owner _)))
      · rfl
    · rfl

/-! ### The commands -/

/-- The commands that may change who holds the authority or waits for it, or discard the pending step: those of the
authority, and those that may take a port reset. -/
def reachesAuthority : Instr → Bool
  | .claimAuthority _ | .releaseAuthority _ | .leaseExpiry | .cancelStep _ => true
  | .responseTransmissionEnd _ | .ackTimeout _ | .breakSeen _ => true
  | _ => false

/-- A command that neither moves time nor reaches the authority leaves both as they are. -/
theorem exec_core {c : Instr} {s t : State} (hmoves : movesTime c = false) (hauth : reachesAuthority c = false)
    (hr : s.rstN = true) (h : exec c s = .next t) : t.core = s.core := by
  have key : ∀ u : State, exec c s = .next u → u.core = s.core → t.core = s.core := fun u =>
    of_exec_eq (P := fun u => u.core = s.core) h
  have blind : LinkBlind (fun s t => t.core = s.core) := ⟨fun _ => rfl, fun h k => k.trans h, State.core_setLink⟩
  have answers : ∀ (f : State → Reply) (args : List Byte) (t : State), (t, f t).1.core = t.core := fun _ _ _ => rfl
  cases c with
  | runTimeAdvance | adjustedAdvance | calendarEnd | secondBoundary | deviceReset => exact absurd hmoves (by decide)
  | setCivil | stepCivil | slewCivil | invalidateCivil | resetRelease => cases hmoves
  | leaseExpiry => exact absurd hauth (by decide)
  | claimAuthority | releaseAuthority | cancelStep | responseTransmissionEnd | ackTimeout | breakSeen => cases hauth
  | readTime p => exact key _ (execReadTime_released p hr) (blind.serve (blind.withLength 0 (answers _)) s p _)
  | listEntries p => exact key _ (execListEntries_released p hr) (blind.serve (blind.withLength 0 (answers _)) s p _)
  | getPortStatus p =>
    exact key _ (execGetPortStatus_released p hr) (blind.serve (blind.withLength 0 (answers _)) s p _)
  | getInfo p => exact key _ (execGetInfo_released p hr) (blind.serve (blind.withLength 0 (answers _)) s p _)
  | portReset p => exact key _ (execPortReset_released p hr) (blind.serve (blind.withLength 0 (answers _)) s p _)
  | queryEntry p => exact key _ (execQueryEntry_released p hr) (blind.serve (blind.withEntry p fun _ _ _ => rfl) s p _)
  | clearFaults p => exact key _ (execClearFaults_released p hr) (blind.serve (blind.withLength 0 fun _ _ => rfl) s p _)
  | createEntry p =>
    refine key _ (execCreateEntry_released p hr) (blind.serve (fun args t => ?_) s p _)
    split
    · rfl
    · exact State.core_of_shell (t.shell_create p _)
  | cancelEntry p =>
    exact key _ (execCancelEntry_released p hr)
      (blind.serve (blind.withEntry p fun id _ t => State.core_of_shell (t.shell_freeEntry id)) s p _)
  | suspendEntry p =>
    refine key _ (execSuspendEntry_released p hr) (blind.serve (blind.withEntry p fun id e t => ?_) s p _)
    split <;> rfl
  | resumeEntry p =>
    refine key _ (execResumeEntry_released p hr) (blind.serve (blind.withEntry p fun id e t => ?_) s p _)
    split
    · exact State.core_of_shell (t.shell_resume id e)
    · rfl
  | claimLine p =>
    refine key _ (execClaimLine_released p hr) (blind.serve (blind.withLength 2 fun args t => ?_) s p _)
    split
    · exact State.core_of_shell (t.shell_claimLine p _ _)
    · rfl
  | releaseLine p =>
    refine key _ (execReleaseLine_released p hr) (blind.serve (blind.withLength 1 fun args t => ?_) s p _)
    split
    · split <;> rfl
    · rfl
  | driveLine p =>
    refine key _ (execDriveLine_released p hr) (blind.serve (blind.withLength 6 fun args t => ?_) s p _)
    split
    · exact State.core_of_shell (t.shell_driveLine p _)
    · rfl
  | claimInput p =>
    refine key _ (execClaimInput_released p hr) (blind.serve (blind.withLength 4 fun args t => ?_) s p _)
    split
    · exact t.core_claimInput p _ _ _
    · rfl
  | releaseInput p =>
    refine key _ (execReleaseInput_released p hr) (blind.serve (blind.withLength 1 fun args t => ?_) s p _)
    split
    · split
      · exact t.core_releaseInput p _
      · rfl
    · rfl
  | setPortConfig p =>
    refine key _ (execSetPortConfig_released p hr) (blind.serve (blind.withLength 5 fun args t => ?_) s p _)
    split <;> rfl
  | unknownRequest p =>
    refine key _ (execUnknownRequest_released p hr) ?_
    split
    · rfl
    · rfl
    · rfl
    · split <;> rfl
  | monoFiring =>
    refine key _ (execMonoFiring_released hr) ?_
    split
    · rfl
    · exact State.core_ite ((State.core_of_shell (State.shell_fireMono _ _)).trans (s.core_setReached _)) _
  | civilFiring =>
    refine key _ (execCivilFiring_released hr) ?_
    split
    · exact State.core_ite ((State.core_of_shell (State.shell_fireCivil _ _)).trans (s.core_setReached _)) _
    · rfl
  | pulseEnd l =>
    refine key _ (execPulseEnd_released l hr) ?_
    split
    · exact State.core_ite (s.core_setLine l _) _
    · rfl
  | captureEdge i level =>
    refine key _ (execCaptureEdge_released i level hr) ?_
    split
    · rfl
    · split
      · rfl
      · exact State.core_takeEdge _ i _
  | holdoffExpiry i =>
    refine key _ (execHoldoffExpiry_released i hr) ?_
    split
    · rfl
    · split
      · rfl
      · exact State.core_ite (s.core_setClaim i _) _
  | backoffExpiry p =>
    refine key _ (execBackoffExpiry_released p hr) ?_
    split
    · rfl
    · exact State.core_ite (s.core_setPort p _) _
  | ackFrame p =>
    refine key _ (execAckFrame_released p hr) ?_
    split <;> rfl
  | characterReceived p b moment =>
    refine key _ (execCharacterReceived_released p b moment hr) ?_
    split <;> rfl
  | frameComplete p b => exact key _ (execFrameComplete_released p b hr) (State.core_ite (s.core_setPort p _) _)
  | lengthFault p b => exact key _ (execLengthFault_released p b hr) (State.core_ite (s.core_setPort p _) _)
  | gapExpiry p => exact key _ (execGapExpiry_released p hr) (State.core_ite (s.core_setLink p _) _)
  | transmitStart p => exact key _ (execTransmitStart_released p hr) (s.core_setPort p _)
  | noteTransmissionEnd p => exact key _ (execNoteTransmissionEnd_released p hr) (s.core_setPort p _)
  | receiveLineAtMark p => exact key _ (execReceiveLineAtMark_released p hr) (s.core_setLink p _)

end Sys2Proof.Machine
end

section
/-! SUPPORT. The authority: what a claim, an end, a port reset and the changes of civil time make of its holder, its
waiters and the pending step, and that every step keeps its invariant (R18, R19, R20 to R23).
-/

namespace Sys2Proof.Machine

/-! ### The invariant -/

theorem authorityOk_of_free {t : State} (hl : t.lease = none) (hw : ∀ p : Port, t.waiters[p] = false)
    (hx : t.step = none) : AuthorityOk t := by
  simp only [AuthorityOk, hl]
  exact ⟨hw, hx⟩

theorem authorityOk_of_held {t : State} {l : Lease} (hl : t.lease = some l) (hw : t.waiters[l.holder] = false) :
    AuthorityOk t := by
  simpa only [AuthorityOk, hl] using hw

theorem AuthorityOk.free {s : State} (h : AuthorityOk s) (hl : s.lease = none) :
    (∀ p : Port, s.waiters[p] = false) ∧ s.step = none := by
  simpa only [AuthorityOk, hl] using h

theorem AuthorityOk.held {s : State} {l : Lease} (h : AuthorityOk s) (hl : s.lease = some l) :
    s.waiters[l.holder] = false := by
  simpa only [AuthorityOk, hl] using h

/-- Holder and waiters are as before, and no step is pending where none was. -/
structure AuthorityKept (s t : State) : Prop where
  same : SameAuthority s t
  step : s.step = none → t.step = none

theorem AuthorityKept.trans {s t u : State} (h : AuthorityKept s t) (k : AuthorityKept t u) : AuthorityKept s u where
  same := ⟨k.same.1.trans h.same.1, k.same.2.trans h.same.2⟩
  step := fun hx => k.step (h.step hx)

theorem AuthorityKept.of_core {s t : State} (h : t.core = s.core) : AuthorityKept s t := by
  obtain ⟨hsame, hstep⟩ := State.authority_of_core h
  exact ⟨hsame, hstep.trans⟩

theorem AuthorityKept.of_shell {s t : State} (h : t.shell = s.shell) : AuthorityKept s t :=
  .of_core (State.core_of_shell h)

theorem AuthorityKept.setCivilTime {s : State} {x : Option PendingStep} (hx : s.step = none → x = none)
    (c : Option Civil) (w : Option Slew) : AuthorityKept s (s.setCivilTime c w x) := ⟨⟨rfl, rfl⟩, hx⟩

theorem AuthorityKept.offerEach (s : State) (f : Port → List Record) : AuthorityKept s (s.offerEach f) :=
  .of_shell (s.shell_offerEach f)

/-- What keeps holder and waiters, and starts no step, keeps the invariant. -/
theorem AuthorityKept.authorityOk {s t : State} (h : AuthorityKept s t) (hs : AuthorityOk s) : AuthorityOk t := by
  obtain ⟨⟨hlease, hwaiters⟩, hstep⟩ := h
  cases hl : s.lease with
  | none =>
    obtain ⟨hw, hx⟩ := hs.free hl
    exact authorityOk_of_free (hlease.trans hl) (fun p => by rw [hwaiters, hw p]) (hstep hx)
  | some l => exact authorityOk_of_held (hlease.trans hl) (by rw [hwaiters, hs.held hl])

/-- R17, R18: the device-reset values, whatever the counter of free values and the queue of commands hold. -/
theorem State.deviceReset_authorityOk (s : State) :
    AuthorityOk { State.reset with freeCount := s.freeCount, pending := s.pending } :=
  authorityOk_of_free rfl State.reset_waiters rfl

/-! ### The holder -/

theorem State.lease_of_holds {s : State} {p : Port} (h : s.holds p = true) :
    ∃ l : Lease, s.lease = some l ∧ l.holder = p := by
  cases hl : s.lease with
  | none => simp [State.holds, hl] at h
  | some l => exact ⟨l, rfl, by simpa [State.holds, hl] using h⟩

/-- A civil-change request is carried out only where its requester is the holder (R25). -/
theorem LinkBlind.civilChange_holder {R : State → State → Prop} {run : List Byte → State → State × Reply}
    (hR : LinkBlind R) (p : Port) (n : Nat) (h : ∀ args t, t.holds p = true → R t (run args t).1) (args : List Byte)
    (t : State) : R t (Machine.civilChange p n run args t).1 := by
  refine hR.withLength n (fun args t => ?_) args t
  split
  · next hp => exact h args t hp
  · exact hR.refl t

/-! ### The ends of the authority (R20 to R23) -/

theorem waiters_emptied (p : Port) : (Vector.replicate 4 false)[p] = false := by simp

/-- One port put into the waiter set or taken out of it. -/
theorem waiters_set (w : Vector Bool 4) (p q : Port) (b : Bool) : (w.set p b)[q] = if q = p then b else w[q] := by
  simp only [Fin.getElem_fin, Vector.getElem_set, Fin.val_inj, eq_comm]

theorem State.dropAuthority_authorityOk (s : State) : AuthorityOk s.dropAuthority :=
  authorityOk_of_free rfl waiters_emptied rfl

theorem State.endAuthority_authorityOk (s : State) (expiredTo : Option Port) : AuthorityOk (s.endAuthority expiredTo) :=
  (AuthorityKept.offerEach _ _).authorityOk s.dropAuthority_authorityOk

theorem State.authorityReset_authorityOk {s : State} (hs : AuthorityOk s) (p : Port) :
    AuthorityOk (s.authorityReset p) := by
  have hw : ∀ q : Port, s.waiters[q] = false → (s.waiters.set p false)[q] = false := fun q hq => by
    rw [waiters_set, hq, ite_self]
  unfold State.authorityReset
  split
  · exact s.dropAuthority_authorityOk
  · cases hl : s.lease with
    | none =>
      obtain ⟨hnone, hx⟩ := hs.free hl
      exact authorityOk_of_free rfl (fun q => hw q (hnone q)) hx
    | some l => exact authorityOk_of_held rfl (hw _ (hs.held hl))

theorem State.resetPort_authorityOk {s : State} (hs : AuthorityOk s) (p : Port) (brk : Bool) :
    AuthorityOk (s.resetPort p brk) := by
  obtain ⟨hlease, hwaiters, hstep⟩ := s.resetPort_authority p brk
  have hkept : AuthorityKept (s.authorityReset p) (s.resetPort p brk) := ⟨⟨hlease, hwaiters⟩, hstep.trans⟩
  exact hkept.authorityOk (State.authorityReset_authorityOk hs p)

theorem State.ackExpired_authorityOk {s : State} (hs : AuthorityOk s) (p : Port) : AuthorityOk (s.ackExpired p) := by
  have hport : ∀ x : PortState, AuthorityOk (s.setPort p x) := fun x => (AuthorityKept.of_shell rfl).authorityOk hs
  unfold State.ackExpired
  dsimp only
  split
  · split
    · exact hport _
    · exact State.resetPort_authorityOk hs p false
  · exact hport _

/-! ### A claim (R19) -/

/-- A claim gives the authority to a port that does not wait, or makes a port wait that is not the holder. -/
theorem State.claimAuthority_authorityOk {s : State} (hs : AuthorityOk s) (p : Port) (ms : Nat) :
    AuthorityOk (s.claimAuthority p ms).1 := by
  unfold State.claimAuthority
  dsimp only
  split
  · next hl => exact authorityOk_of_held rfl ((hs.free hl).1 p)
  · next l hl =>
    have hw := hs.held hl
    split
    · next hp => exact authorityOk_of_held rfl (hp ▸ hw)
    · next hp =>
      refine authorityOk_of_held hl ?_
      change (s.waiters.set p true)[l.holder] = false
      rw [waiters_set, if_neg hp, hw]

/-! ### Changes of civil time (R26 to R37) -/

theorem State.invalidate_authorityKept (s : State) (cause : ChangeCause) (p : Option Port) :
    AuthorityKept s (s.invalidate cause p) :=
  (AuthorityKept.setCivilTime (fun _ => rfl) none none).trans
    (.of_shell ((State.shell_offerEach _ _).trans (State.shell_sleepPatterns _)))

theorem State.moveCivil_authorityKept (s : State) (old new : Civil) (cancelled : Option PendingStep)
    (reason : ChangeReason) (p : Port) (offset : Int) :
    AuthorityKept s (s.moveCivil old new cancelled reason p offset) := by
  refine (AuthorityKept.setCivilTime (fun _ => rfl) (some new) none).trans (.of_shell ?_)
  rw [State.moveCivil_eq, State.shell_offerEach, State.shell_stepPatterns, State.shell_offerEach]
  rfl

theorem State.setCivil_authorityKept (s : State) (p : Port) (new : Civil) : AuthorityKept s (s.setCivil p new) := by
  unfold State.setCivil
  split
  · exact (AuthorityKept.setCivilTime (fun _ => rfl) (some new) none).trans
      (.of_shell ((State.shell_offerEach _ _).trans (State.shell_wakePatterns _ _)))
  · exact s.moveCivil_authorityKept _ _ _ _ _ _

theorem State.cancelStep_authorityKept (s : State) : AuthorityKept s s.cancelStep :=
  (AuthorityKept.setCivilTime (fun _ => rfl) s.civil s.slew).trans (.offerEach _ _)

theorem State.slewCivil_authorityKept (s : State) (p : Port) (offset : Int) (rate : Nat) :
    AuthorityKept s (s.slewCivil p offset rate).1 := by
  unfold State.slewCivil
  split
  · split
    · exact .of_core rfl
    · exact .setCivilTime id _ _
  · exact .of_core rfl

/-- A step becomes pending only at the request of the holder (R30). -/
theorem State.stepCivil_authorityOk {s : State} {p : Port} (hs : AuthorityOk s) (hp : s.holds p = true) (offset : Int)
    (mode : Byte) : AuthorityOk (s.stepCivil p offset mode).1 := by
  unfold State.stepCivil
  split
  · exact hs
  · split
    · exact hs
    · exact hs
    · split
      · unfold State.stepNow
        split
        · exact (s.moveCivil_authorityKept _ _ _ _ _ _).authorityOk hs
        · exact hs
      · unfold State.stepAtSecond
        split
        · obtain ⟨l, hl, -⟩ := State.lease_of_holds hp
          exact authorityOk_of_held hl (hs.held hl)
        · exact hs

/-! ### Advances (R10, R12, R13) -/

theorem State.advanceTime_authorityKept (s : State) : AuthorityKept s s.advanceTime := by
  have htick : AuthorityKept s s.tick := by
    rw [State.tick_eq]
    exact ⟨⟨rfl, rfl⟩, id⟩
  refine htick.trans ?_
  have hstep : s.tick.step = s.step := by rw [State.tick_eq]
  cases hc : s.civil with
  | none =>
    rw [State.advanceTime_unset hc]
    exact .of_core rfl
  | some c =>
    by_cases hy : (c.advance (advanceAmount s.slew)).year ≤ 2199
    · have hmoved : ∀ (new : Option Civil) (w : Option Slew) (f : PendingStep → PendingStep),
          AuthorityKept s.tick (s.tick.setCivilTime new w (s.step.map f)) := fun new w f =>
        .setCivilTime (fun hx => by rw [← hstep, hx, Option.map_none]) new w
      rw [State.advanceTime_valid hc hy]
      dsimp only
      split
      · exact (hmoved _ _ _).trans (.offerEach _ _)
      · exact hmoved _ _ _
    · rw [State.advanceTime_end hc (by omega)]
      exact s.tick.invalidate_authorityKept _ _

/-- An advance that is taken only under a condition. -/
theorem State.takeAdvance_authorityOk {s : State} (hs : AuthorityOk s) (b : Bool) :
    AuthorityOk (if b then s.takeAdvance else s) := by
  split
  · exact (s.advanceTime_authorityKept.trans (.of_core (State.core_setReached _ _))).authorityOk hs
  · exact hs

/-! ### Every step -/

/-- Keeping the invariant is a relation that a change of a port's link does not touch. -/
theorem authorityOk_linkBlind : LinkBlind (fun s t => AuthorityOk s → AuthorityOk t) where
  refl := fun _ h => h
  trans := fun h k hs => k (h hs)
  setLink := fun s p x => (AuthorityKept.of_core (s.core_setLink p x)).authorityOk

/-- A command that moves time keeps the invariant. -/
theorem exec_movesTime_authorityOk {c : Instr} {s t : State} (hc : movesTime c = true) (hr : s.rstN = true)
    (hs : AuthorityOk s) (h : exec c s = .next t) : AuthorityOk t := by
  have key : ∀ u : State, exec c s = .next u → AuthorityOk u → AuthorityOk t := fun u => of_exec_eq h
  have blind := authorityOk_linkBlind
  cases c with
  | runTimeAdvance => exact key _ (execRunTimeAdvance_released hr) (State.takeAdvance_authorityOk hs _)
  | adjustedAdvance => exact key _ (execAdjustedAdvance_released hr) (State.takeAdvance_authorityOk hs _)
  | calendarEnd => exact key _ (execCalendarEnd_released hr) (State.takeAdvance_authorityOk hs _)
  | secondBoundary =>
    refine key _ (execSecondBoundary_released hr) ?_
    split
    · split
      · exact (s.moveCivil_authorityKept _ _ _ _ _ _).authorityOk hs
      · exact hs
    · exact hs
  | setCivil p =>
    refine key _ (execSetCivil_released p hr) (blind.serve (blind.civilChange p 12 fun args t ht => ?_) s p _ hs)
    split
    · exact ht
    · exact (t.setCivil_authorityKept p _).authorityOk ht
  | stepCivil p =>
    exact key _ (execStepCivil_released p hr) (blind.serve
      (blind.civilChange_holder p 9 fun _ _ hp ht => State.stepCivil_authorityOk ht hp _ _) s p _ hs)
  | slewCivil p =>
    exact key _ (execSlewCivil_released p hr) (blind.serve
      (blind.civilChange p 6 fun _ t ht => (t.slewCivil_authorityKept p _ _).authorityOk ht) s p _ hs)
  | invalidateCivil p =>
    refine key _ (execInvalidateCivil_released p hr) (blind.serve (blind.civilChange p 0 fun _ t ht => ?_) s p _ hs)
    split
    · exact ht
    · exact (t.invalidate_authorityKept _ _).authorityOk ht
  | deviceReset => exact key _ (exec_deviceReset s) s.deviceReset_authorityOk
  | resetRelease r1 r0 c0 c1 c2 c3 =>
    refine key _ (exec_resetRelease s r1 r0 c0 c1 c2 c3) ?_
    rw [if_pos hr]
    exact hs
  | _ => cases hc

/-- A command that reaches the authority keeps the invariant. -/
theorem exec_reachesAuthority_authorityOk {c : Instr} {s t : State} (hc : reachesAuthority c = true)
    (hr : s.rstN = true) (hs : AuthorityOk s) (h : exec c s = .next t) : AuthorityOk t := by
  have key : ∀ u : State, exec c s = .next u → AuthorityOk u → AuthorityOk t := fun u => of_exec_eq h
  have blind := authorityOk_linkBlind
  cases c with
  | claimAuthority p =>
    refine key _ (execClaimAuthority_released p hr) (blind.serve (blind.withLength 4 fun args t ht => ?_) s p _ hs)
    dsimp only
    split
    · exact State.claimAuthority_authorityOk ht p _
    · exact ht
  | releaseAuthority p =>
    refine key _ (execReleaseAuthority_released p hr) (blind.serve (blind.withLength 0 fun _ t ht => ?_) s p _ hs)
    split
    · exact t.endAuthority_authorityOk none
    · exact ht
  | leaseExpiry =>
    refine key _ (execLeaseExpiry_released hr) ?_
    split
    · exact hs
    · split
      · exact s.endAuthority_authorityOk _
      · exact hs
  | cancelStep p =>
    refine key _ (execCancelStep_released p hr) (blind.serve (blind.civilChange p 0 fun _ t ht => ?_) s p _ hs)
    split
    · exact ht
    · exact t.cancelStep_authorityKept.authorityOk ht
  | responseTransmissionEnd p =>
    have hlink : ∀ x : Link, AuthorityOk (s.setLink p x) := fun x => blind.setLink s p x hs
    refine key _ (execResponseTransmissionEnd_released p hr) ?_
    split
    · dsimp only
      split
      · exact State.resetPort_authorityOk (hlink _) p false
      · exact hlink _
    · exact hlink _
    · exact hs
    · exact hs
    · exact hs
  | ackTimeout p =>
    refine key _ (execAckTimeout_released p hr) ?_
    split
    · exact hs
    · split
      · exact State.ackExpired_authorityOk hs p
      · exact hs
  | breakSeen p =>
    refine key _ (execBreakSeen_released p hr) ?_
    split
    · exact State.resetPort_authorityOk hs p true
    · exact hs
  | _ => cases hc

/-- A command given while RST_N is low keeps the invariant. -/
theorem exec_low_authorityOk {c : Instr} {s t : State} (hr : s.rstN = false) (hs : AuthorityOk s)
    (h : exec c s = .next t) : AuthorityOk t := by
  have key : ∀ u : State, exec c s = .next u → AuthorityOk u → AuthorityOk t := fun u => of_exec_eq h
  cases c with
  | deviceReset => exact key _ (exec_deviceReset s) s.deviceReset_authorityOk
  | resetRelease r1 r0 c0 c1 c2 c3 =>
    have hkept : ∀ inputs, AuthorityKept s (s.released r1 r0 inputs) := fun _ => ⟨⟨rfl, rfl⟩, id⟩
    refine key _ (exec_resetRelease s r1 r0 c0 c1 c2 c3) ?_
    rw [hr]
    exact (hkept _).authorityOk hs
  | _ => exact key s (exec_of_low hr (by simp) (by simp)) hs

theorem exec_authorityOk {c : Instr} {s t : State} (hs : AuthorityOk s) (h : exec c s = .next t) : AuthorityOk t := by
  cases hr : s.rstN with
  | false => exact exec_low_authorityOk hr hs h
  | true =>
    cases hmoves : movesTime c with
    | true => exact exec_movesTime_authorityOk hmoves hr hs h
    | false =>
      cases hauth : reachesAuthority c with
      | true => exact exec_reachesAuthority_authorityOk hauth hr hs h
      | false => exact (AuthorityKept.of_core (exec_core hmoves hauth hr h)).authorityOk hs

/-- Settles O56: the commands that move time or reach the authority keep the invariant one by one, all others because
they leave the core of the state (`exec_core`); a REFCLK cycle and the queue of commands are nothing to it. -/
theorem authorityInvariant : Obligations.AuthorityInvariant :=
  step_keeps (fun _ _ hs => hs) (fun _ hs _ => hs) (fun _ _ _ hs h => exec_authorityOk hs h)

end Sys2Proof.Machine
end

section
/-! SUPPORT. The requests of the authority and of the corrections of civil time, and the lease expiry: what each comes
to by the state of the unit (R19 to R22, R25, R28 to R33, R36, R40).
-/

namespace Sys2Proof.Machine

/-! ### Claims and ends of the authority (R19 to R22, R40) -/

/-- The lease that a claim of `ms` milliseconds by port `p` gives (R19). -/
def State.grantedLease (s : State) (p : Port) (ms : Nat) : Lease :=
  { holder := p, expiry := endInstant s.runTime (ms * 1000) }

theorem State.claimAuthority_free {s : State} (h : s.lease = none) (p : Port) (ms : Nat) :
    s.claimAuthority p ms = ({ s with lease := some (s.grantedLease p ms) }, Reply.plain .ok) := by
  simp only [State.claimAuthority, h]
  rfl

theorem State.claimAuthority_holder {s : State} {p : Port} {l : Lease} (h : s.lease = some l) (hp : l.holder = p)
    (ms : Nat) : s.claimAuthority p ms = ({ s with lease := some (s.grantedLease p ms) }, Reply.plain .ok) := by
  simp only [State.claimAuthority, h, if_pos hp]
  rfl

theorem State.claimAuthority_other {s : State} {p : Port} {l : Lease} (h : s.lease = some l) (hp : l.holder ≠ p)
    (ms : Nat) :
    s.claimAuthority p ms =
      ({ s with waiters := s.waiters.set p true },
        { status := .held, results := [BitVec.ofNat 8 l.holder.val], resets := false }) := by
  simp only [State.claimAuthority, h, if_neg hp]
  rw [← h]
  rfl

/-- The end of the authority, its records written out (R21, R22, R40). -/
theorem State.endAuthority_eq (s : State) (expiredTo : Option Port) :
    s.endAuthority expiredTo =
      State.offerEach { s with lease := none, waiters := Vector.replicate 4 false, step := none } (fun q =>
        (if expiredTo = some q then [authorityRecord .expired s.runTime] else []) ++
        ((if s.waiters[q] then [authorityRecord .free s.runTime] else []) ++ stepGone s.step s.runTime s.civil)) := by
  simp only [State.endAuthority, State.authorityEndRecords, State.stepCancelled_request]
  rfl

/-- Settles O12: the lease asked for is read back from its four bytes, and a claim in range is one of the three cases of
`State.claimAuthority`. -/
theorem claimAuthority : Obligations.ClaimAuthority := by
  intro s p tag ms hms h t granted
  have hfield : fieldAt (toBytes 4 ms) 0 4 = ms := by simpa using fieldAt_zero 4 ms [] hms
  have hexec := execClaimAuthority_released p h.1
  rw [State.serve_withLength h (toBytes_length 4 ms)] at hexec
  simp only [hfield] at hexec
  refine ⟨fun hout => ?_, fun hlo hhi => ?_⟩
  · rw [hexec, if_neg (by omega)]
    rfl
  · rw [if_pos ⟨hlo, hhi⟩] at hexec
    refine ⟨fun hl => ?_, fun l hl hp => ?_, fun l hl hp => ?_⟩
    · rw [hexec, State.claimAuthority_free (show t.lease = none from hl)]
      rfl
    · rw [hexec, State.claimAuthority_holder (show t.lease = some l from hl) hp]
      rfl
    · rw [hexec, State.claimAuthority_other (show t.lease = some l from hl) hp]
      rfl

/-- Settles O13: both ends are `State.endAuthority_eq`, at the holder's request without an EXPIRED record. -/
theorem endsOfTheAuthority : Obligations.EndsOfTheAuthority := by
  refine ⟨fun s p tag h => ?_, fun s hr => ?_⟩
  · have hexec := execReleaseAuthority_released p h.1
    rw [State.serve_withLength h (n := 0) rfl, State.takeRequest_holds] at hexec
    refine ⟨fun l hl hp => ?_, fun hother => ?_⟩
    · rw [hexec, if_pos (State.holds_of_lease hl hp), State.endAuthority_eq]
      rfl
    · rw [hexec, State.holds_eq_false hother]
      rfl
  · have hexec := execLeaseExpiry_released hr
    refine ⟨fun l hl hdue => ?_, fun l hl hearly => ?_, fun hl => ?_⟩
    · simp only [hl, if_pos hdue, State.endAuthority_eq, Option.some.injEq] at hexec
      exact hexec
    · simpa only [hl, if_neg (Nat.not_le.2 hearly)] using hexec
    · simpa only [hl] using hexec

/-! ### Civil-change requests of a port that is not the holder (R25) -/

theorem State.serve_civilChange_refused {s : State} {p : Port} {tag code : Byte} {args : List Byte} {n : Nat}
    (h : Requested s p tag code args) (hn : args.length = n) (hp : s.holds p = false)
    (run : List Byte → State → State × Reply) :
    s.serve p code (civilChange p n run) = (s.takeRequest p).respond p tag code (Reply.plain .notHolder) := by
  rw [civilChange, State.serve_withLength h hn, State.takeRequest_holds, hp]
  rfl

/-- The request commands with a code from 4 to 8 are the five civil-change requests (Table 10-9). -/
theorem requestOf_civilChange {c : Instr} {p : Port} {code : Byte} (h : requestOf c = some (p, code))
    (hlo : 4 ≤ code.toNat) (hhi : code.toNat ≤ 8) :
    c = .setCivil p ∧ code = 0x04 ∨ c = .stepCivil p ∧ code = 0x05 ∨ c = .cancelStep p ∧ code = 0x06 ∨
    c = .slewCivil p ∧ code = 0x07 ∨ c = .invalidateCivil p ∧ code = 0x08 := by
  cases c with
  | setCivil | stepCivil | cancelStep | slewCivil | invalidateCivil =>
    cases h
    simp
  | readTime | claimAuthority | releaseAuthority =>
    cases h
    exact absurd hlo (by decide)
  | createEntry | queryEntry | listEntries | cancelEntry | suspendEntry | resumeEntry | claimLine | releaseLine
  | driveLine | claimInput | releaseInput | setPortConfig | getPortStatus | clearFaults | getInfo | portReset =>
    cases h
    exact absurd hhi (by decide)
  | _ => cases h

/-- Settles O14: each of the five requests is refused by the check of the holder that they share. -/
theorem civilChangeNeedsTheAuthority : Obligations.CivilChangeNeedsTheAuthority := by
  intro s c p tag code args hreq hlo hhi hlen h hother
  have hp := State.holds_eq_false hother
  have length : ∀ {n : Nat}, requestLength code = some n → args.length = n := fun hn =>
    Option.some.inj (hlen.symm.trans hn)
  rcases requestOf_civilChange hreq hlo hhi with
    ⟨rfl, rfl⟩ | ⟨rfl, rfl⟩ | ⟨rfl, rfl⟩ | ⟨rfl, rfl⟩ | ⟨rfl, rfl⟩
  · rw [execSetCivil_released p h.1, State.serve_civilChange_refused h (length rfl) hp]
  · rw [execStepCivil_released p h.1, State.serve_civilChange_refused h (length rfl) hp]
  · rw [execCancelStep_released p h.1, State.serve_civilChange_refused h (length rfl) hp]
  · rw [execSlewCivil_released p h.1, State.serve_civilChange_refused h (length rfl) hp]
  · rw [execInvalidateCivil_released p h.1, State.serve_civilChange_refused h (length rfl) hp]

/-! ### STEP_CIVIL and CANCEL_STEP (R28 to R31) -/

section
variable {s : State} {old : Civil} {mode : Byte} {offset : Int} (p : Port)

theorem State.stepCivil_badMode (h : 1 < mode.toNat) : s.stepCivil p offset mode = refuse s .range := if_pos h

theorem State.stepCivil_unset (hm : mode.toNat ≤ 1) (hc : s.civil = none) :
    s.stepCivil p offset mode = refuse s .civilUnset := by
  simp only [State.stepCivil, if_neg (Nat.not_lt.2 hm), hc]

theorem State.stepCivil_pending (hm : mode.toNat ≤ 1) (hc : s.civil = some old) (hx : s.step ≠ none) :
    s.stepCivil p offset mode = refuse s .stepPending := by
  obtain ⟨x, hx⟩ := Option.ne_none_iff_exists'.1 hx
  simp only [State.stepCivil, if_neg (Nat.not_lt.2 hm), hc, hx]

theorem State.stepCivil_immediate (hc : s.civil = some old) (hx : s.step = none) :
    s.stepCivil p offset 0 = s.stepNow p old offset := by
  simp only [State.stepCivil, hc, hx]
  rfl

theorem State.stepCivil_atSecond (hc : s.civil = some old) (hx : s.step = none) :
    s.stepCivil p offset 1 = s.stepAtSecond p old offset := by
  simp only [State.stepCivil, hc, hx]
  rfl

theorem State.stepNow_outside (h : inCivilRange (old.shifted offset) = false) :
    s.stepNow p old offset = refuse s .range := by
  rw [State.stepNow, h]
  rfl

/-- R29: an IMMEDIATE step, its records written out. -/
theorem State.stepNow_inside {new : Civil} (h : inCivilRange (old.shifted offset) = true)
    (hnew : Civil.ofCount (old.shifted offset).toNat = new) :
    s.stepNow p old offset =
      (((({ s with civil := some new, slew := none, step := none } : State).offerEach
            (fun _ => slewGone s.slew s.runTime (some new))).stepPatterns old new).offerEach
          (fun _ => [changeRecord .stepped (some p) (some offset) s.runTime (some new)]), Reply.plain .ok) := by
  rw [State.stepNow, if_pos h, State.moveCivil_eq, hnew]
  simp only [stepGone, List.append_nil]

theorem State.stepAtSecond_outside
    (h : 2199 < old.targetBoundary.year ∨ inCivilRange (old.targetBoundary.shifted offset) = false) :
    s.stepAtSecond p old offset = refuse s .range := by
  refine if_neg ?_
  rw [Bool.and_eq_true, decide_eq_true_eq]
  rintro ⟨hyear, hrange⟩
  rcases h with h | h
  · omega
  · rw [h] at hrange
    cases hrange

theorem State.stepAtSecond_inside (hyear : old.targetBoundary.year ≤ 2199)
    (hrange : inCivilRange (old.targetBoundary.shifted offset) = true) :
    s.stepAtSecond p old offset =
      ({ s with step := some { offset := offset, requester := p, reached := none } }, Reply.plain .accepted) := by
  rw [State.stepAtSecond, decide_eq_true hyear, hrange]
  rfl

end

theorem byteAt_after (before : List Byte) (b : Byte) : byteAt (before ++ [b]) before.length = b := by
  simp [byteAt]

/-- Settles O16: offset and mode are read back from the argument field, and each check is a case of
`State.stepCivil`. -/
theorem stepCivil : Obligations.StepCivil := by
  intro s p tag mode offset l hlo hhi h hl hp t refused
  have hoffset : signedAt (signedBytes 8 offset ++ [mode]) 0 8 = offset := signedAt_zero 8 (by decide) offset _ hlo hhi
  have hmode : byteAt (signedBytes 8 offset ++ [mode]) 8 = mode := byteAt_after (signedBytes 8 offset) mode
  have hexec := execStepCivil_released p h.1
  rw [State.serve_civilChange h (by simp) (State.holds_of_lease hl hp), hoffset, hmode] at hexec
  have refused_of : ∀ {st : Status}, t.stepCivil p offset mode = refuse t st → refused st := fun hst => by
    rw [hst] at hexec
    exact hexec
  refine ⟨fun hm => refused_of (State.stepCivil_badMode p hm), fun hm hc => refused_of (State.stepCivil_unset p hm hc),
    fun old hm hc => ⟨fun hx => refused_of (State.stepCivil_pending p hm hc hx), fun hx hzero => ?_,
      fun hx hone => ?_⟩⟩
  · subst hzero
    have hnow := State.stepCivil_immediate (s := t) (offset := offset) p hc hx
    refine ⟨fun hout => refused_of (hnow.trans (State.stepNow_outside p hout)), fun hin => ?_⟩
    rw [hexec, hnow, State.stepNow_inside p hin rfl]
    rfl
  · subst hone
    have hat := State.stepCivil_atSecond (s := t) (offset := offset) p hc hx
    refine ⟨fun hout => refused_of (hat.trans (State.stepAtSecond_outside p hout)), fun hyear hin => ?_⟩
    rw [hexec, hat, State.stepAtSecond_inside p hyear hin]

/-- Settles O17: the record of the step discarded is stamped with the time as it stands. -/
theorem cancelStep : Obligations.CancelStep := by
  intro s p tag l h hl hp t
  have hexec := execCancelStep_released p h.1
  rw [State.serve_civilChange h (n := 0) rfl (State.holds_of_lease hl hp)] at hexec
  refine ⟨fun x hx => ?_, fun hx => ?_⟩
  · simp only [State.takeRequest_step, hx, State.cancelStep, State.stepCancelled_request] at hexec
    exact hexec
  · simp only [State.takeRequest_step, hx] at hexec
    exact hexec

/-! ### SLEW_CIVIL (R33) -/

section
variable {s : State} {offset : Int} {rate : Nat} (p : Port)

theorem State.slewCivil_outside (h : offset = 0 ∨ 10000000 < offset.natAbs ∨ rate = 0 ∨ 500 < rate) :
    s.slewCivil p offset rate = refuse s .range :=
  if_neg (by omega)

theorem State.slewCivil_unset (hoff : 1 ≤ offset.natAbs ∧ offset.natAbs ≤ 10000000) (hrate : 1 ≤ rate ∧ rate ≤ 500)
    (hc : s.civil = none) : s.slewCivil p offset rate = refuse s .civilUnset := by
  rw [State.slewCivil, if_pos ⟨hoff.1, hoff.2, hrate⟩, hc]

theorem State.slewCivil_valid (hoff : 1 ≤ offset.natAbs ∧ offset.natAbs ≤ 10000000) (hrate : 1 ≤ rate ∧ rate ≤ 500)
    (hc : s.civil ≠ none) :
    s.slewCivil p offset rate =
      ({ s with
          slew := some { remaining := offset, rate := rate, interval := 1000000 / rate, count := 0, requester := p } },
       Reply.okWith (signedBytes 4 (discardedRemainder s.slew))) := by
  obtain ⟨c, hc⟩ := Option.ne_none_iff_exists'.1 hc
  rw [State.slewCivil, if_pos ⟨hoff.1, hoff.2, hrate⟩]
  simp only [hc]
  rw [← hc]
  rfl

end

/-- Settles O18: offset and rate are read back from the argument field, and `State.slewCivil` checks them. -/
theorem slewCivil : Obligations.SlewCivil := by
  intro s p tag offset rate l hlo hhi hr h hl hp t
  have hoffset : signedAt (signedBytes 4 offset ++ toBytes 2 rate) 0 4 = offset :=
    signedAt_zero 4 (by decide) offset _ hlo hhi
  have hrate : fieldAt (signedBytes 4 offset ++ toBytes 2 rate) 4 2 = rate := by
    simpa using fieldAt_after (signedBytes 4 offset) [] 2 rate hr
  have hexec := execSlewCivil_released p h.1
  rw [State.serve_civilChange h (by simp) (State.holds_of_lease hl hp), hoffset, hrate] at hexec
  refine ⟨fun hout => ?_, fun hne habs hrlo hrhi => ?_⟩
  · rw [hexec, State.slewCivil_outside p hout]
    rfl
  · have hoff : 1 ≤ offset.natAbs ∧ offset.natAbs ≤ 10000000 := ⟨by omega, habs⟩
    refine ⟨fun hc => ?_, fun hc => ?_⟩
    · rw [hexec, State.slewCivil_unset (s := t) p hoff ⟨hrlo, hrhi⟩ hc]
      rfl
    · rw [hexec, State.slewCivil_valid (s := t) p hoff ⟨hrlo, hrhi⟩ hc, show t.slew = s.slew from rfl]
      cases s.slew <;> rfl

/-! ### INVALIDATE_CIVIL (R36, R101) -/

/-- Settles O19: what an invalidation does is `State.civilGone`, with the records of `State.invalidate_request`. -/
theorem invalidateCivil : Obligations.InvalidateCivil := by
  intro s p tag l h hl hp t
  have hexec := execInvalidateCivil_released p h.1
  rw [State.serve_civilChange h (n := 0) rfl (State.holds_of_lease hl hp)] at hexec
  refine ⟨fun hc => ?_, fun hc => ⟨t.invalidate .request (some p), ?_, ?_⟩⟩
  · simp only [State.takeRequest_civil, hc] at hexec
    exact hexec
  · obtain ⟨c, hc⟩ := Option.ne_none_iff_exists'.1 hc
    simp only [State.takeRequest_civil, hc] at hexec
    exact hexec
  · rw [State.invalidate_request]
    exact t.civilGone _

end Sys2Proof.Machine
end

section
/-! SUPPORT. Line actions at Line Control, the firing procedure common to every kind of entry, and the firing of the
head of the MONO due list (R69, R71 to R83, R117, R121, R127).
-/

namespace Sys2Proof.Machine

/-! ### Line actions at Line Control (R71, R117, R121, R127) -/

theorem State.ownsLine_iff (s : State) (p : Port) (l : Line) :
    s.ownsLine p l = true ↔ ∃ c : LineClaim, (s.line l).claim = some c ∧ c.owner = p := by
  rw [State.ownsLine_eq]
  cases (s.line l).claim <;> simp

/-- Whatever the action, the pulse end that it drops is the one it answers. -/
theorem LineState.apply_overtaken (l : LineState) (c : LineClaim) (a : Action) (now : Nat) (src : Source) :
    (l.apply c a now src).2 = l.pulse.map (fun x => x.source) := by
  cases a <;> rfl

theorem State.askLine_notOwner {s : State} {a : LineAction} {owner : Port} (src : Source)
    (h : s.ownsLine owner a.line = false) :
    s.askLine (some a) owner src = (s, { owned := false, overtaken := none }) := by
  cases hc : (s.line a.line).claim with
  | none => simp only [State.askLine, hc]
  | some c =>
    have hother : c.owner ≠ owner := fun ho => Bool.eq_false_iff.1 h ((s.ownsLine_iff _ _).2 ⟨c, hc, ho⟩)
    simp only [State.askLine, hc, if_neg hother]

theorem State.askLine_owner {s : State} {a : LineAction} {c : LineClaim} (src : Source)
    (hc : (s.line a.line).claim = some c) :
    s.askLine (some a) c.owner src =
      (s.setLine a.line ((s.line a.line).apply c a.action s.runTime src).1,
       { owned := true, overtaken := (s.line a.line).pulse.map (fun x => x.source) }) := by
  simp only [State.askLine, hc, if_true, LineState.apply_overtaken]

/-- Settles O32: the port owns the line or it does not; for the owner, action by action. -/
theorem lineActionAtLineControl : Obligations.LineActionAtLineControl := by
  intro s owner src
  refine ⟨rfl, fun a h => State.askLine_notOwner src h, ?_⟩
  rintro ⟨l, action⟩ c hc rfl
  rw [State.askLine_owner src hc, ← hc]
  cases action <;> rfl

/-- A line action changes lines only. -/
@[simp] theorem State.askLine_slot (s : State) (a : Option LineAction) (p : Port) (src : Source) (j : EntryId) :
    (s.askLine a p src).1.slot j = s.slot j := by
  cases a with
  | none => rfl
  | some a =>
    cases h : s.ownsLine p a.line with
    | false => rw [State.askLine_notOwner src h]
    | true =>
      obtain ⟨c, hc, rfl⟩ := (s.ownsLine_iff _ _).1 h
      rw [State.askLine_owner src hc]
      rfl

/-! ### The firing procedure (R71 to R77, Table 4-2) -/

/-- R72: the line not owned comes before the late mark. -/
theorem firingOutcome_eq (owned late : Bool) :
    firingOutcome owned late = if owned = false then .lineNotOwned else if late then .late else .ok := by
  cases owned <;> rfl

/-- R74: what offers a FIRED record. -/
theorem firedOffered_iff (mode : NotifyMode) (outcome : FiringOutcome) (final : Bool) :
    firedOffered mode outcome final = true ↔
      final = true ∨ mode = .always ∨ (mode = .faultsOnly ∧ outcome ≠ .ok) := by
  cases mode with
  | always => simp [firedOffered]
  | faultsOnly => cases outcome <;> simp [firedOffered]
  | never => simp [firedOffered]

/-- R71: what Line Control makes of a firing and answers it, the entry gone from its list. -/
def State.askFiring (s : State) (id : EntryId) (e : Entry) : State × LineAnswer :=
  (s.unlist id).askLine e.action e.owner (.entry (s.handleOf id))

/-- R72: the outcome of a firing. -/
def State.firingResult (s : State) (id : EntryId) (e : Entry) (late : Bool) : FiringOutcome :=
  firingOutcome (s.askFiring id e).2.owned late

/-- R76: the entry after a firing, its carried skips as they were. -/
def Entry.consumed (e : Entry) : Entry := { e with remaining := consumeRemaining e.remaining }

section Fire

variable {s : State} {id : EntryId} {e : Entry} {intended : Intended} {late ends : Bool}

theorem State.fire_final : (s.fire id e intended late ends).final = (ends || lastFiring e.remaining) := by
  unfold State.fire
  dsimp only
  split <;> rfl

theorem State.fire_offered
    (h : firedOffered e.notify (s.firingResult id e late) (ends || lastFiring e.remaining) = true) :
    s.fire id e intended late ends =
      { state := (s.askFiring id e).1.offer e.owner
          (firedRecord s id e intended (s.firingResult id e late) (ends || lastFiring e.remaining)
            (s.askFiring id e).2.overtaken)
        entry := { e.consumed with timing := e.timing.withSkips 0 }
        final := ends || lastFiring e.remaining } :=
  if_pos h

theorem State.fire_notOffered
    (h : ¬firedOffered e.notify (s.firingResult id e late) (ends || lastFiring e.remaining) = true) :
    s.fire id e intended late ends =
      { state := (s.askFiring id e).1, entry := e.consumed, final := ends || lastFiring e.remaining } :=
  if_neg h

/-- The firing procedure up to its record leaves the table: the entry it forms is the caller's to place. -/
@[simp] theorem State.fire_slot (j : EntryId) : (s.fire id e intended late ends).state.slot j = s.slot j := by
  have hasked : (s.askFiring id e).1.slot j = s.slot j := by
    rw [State.askFiring, State.askLine_slot, State.unlist_slot]
  by_cases h : firedOffered e.notify (s.firingResult id e late) (ends || lastFiring e.remaining) = true
  · rw [State.fire_offered h, State.offer_slot, hasked]
  · rw [State.fire_notOffered h, hasked]

end Fire

/-- Settles O33: a firing whose record is offered and one whose record is not. -/
theorem firingProcedure : Obligations.FiringProcedure := by
  intro s id e intended late ends asked outcome final left carried cleared offered
  have houtcome : s.firingResult id e late = outcome := firingOutcome_eq _ _
  have hcarried : e.timing.skips = carried := by
    simp only [carried]
    cases e.timing <;> rfl
  have hcleared : e.timing.withSkips 0 = cleared := by
    simp only [cleared]
    cases e.timing <;> rfl
  have hoffered :
      firedOffered e.notify (s.firingResult id e late) (ends || lastFiring e.remaining) = true ↔ offered := by
    rw [houtcome]
    exact firedOffered_iff _ _ _
  refine ⟨State.fire_final, fun h => ?_, fun h => ?_⟩
  · rw [State.fire_offered (hoffered.2 h), houtcome, firedRecord, hcarried, hcleared]
    exact ⟨rfl, rfl⟩
  · rw [State.fire_notOffered (mt hoffered.1 h)]
    exact ⟨rfl, rfl⟩

/-! ### The head of the MONO due list (R69, R77 to R83) -/

theorem execMonoFiring_notDue {s : State} {pos : MonoPos} {rest : List MonoPos} (hr : s.rstN = true)
    (hm : s.mono = pos :: rest) (h : s.runTime < pos.due) : exec .monoFiring s = .next s := by
  rw [execMonoFiring_released hr, hm]
  exact congrArg _ (if_neg (Nat.not_le.2 h))

theorem execMonoFiring_due {s : State} {pos : MonoPos} {rest : List MonoPos} (hr : s.rstN = true)
    (hm : s.mono = pos :: rest) (h : pos.due ≤ s.runTime) :
    exec .monoFiring s = .next ((s.setReached { s.reached with mono := false }).fireMono pos) := by
  rw [execMonoFiring_released hr, hm]
  exact congrArg _ (if_pos h)

/-- R82: after a late firing the next due is the first grid instant after now. -/
theorem nextDue_late {now due first period : Nat} (hp : 0 < period) (hf : first ≤ now)
    (hr : first + (now - first) / period * period + period < Config.runTimeLimit) :
    now < nextDue now due first period true := by
  have hgrid : now - first < (now - first) / period * period + period := Nat.lt_div_mul_add hp
  simp only [nextDue, gridIndex, if_true, endInstant, hr]
  omega

/-- R82: the skips that a late firing of a PERIODIC entry adds. -/
theorem Entry.addSkips_periodic {e : Entry} {due first period skips : Nat}
    (h : e.timing = .periodic due first period skips) (n : Nat) :
    e.addSkips n = { e with timing := .periodic due first period (min 255 (skips + n)) } := by
  simp only [Entry.addSkips, h, Timing.withSkips, Timing.skips, saturate]

theorem State.endEntry_of_entry {s : State} {id : EntryId} {e : Entry} (reason : EndReason)
    (h : (s.slot id).entry = some e) :
    s.endEntry id reason = (s.offer e.owner (endedRecord s id e reason)).freeEntry id := by
  simp only [State.endEntry, h]
  rfl

section FireMono

variable {s : State} {pos : MonoPos} {e : Entry} (he : (s.slot pos.id).entry = some e)
include he

theorem State.fireMono_once {due : Nat} (ht : e.timing = .once due) :
    s.fireMono pos = (s.fire pos.id e (.run pos.due) pos.late true).state.freeEntry pos.id := by
  simp only [State.fireMono, he, ht]

/-- R79, R82: a PERIODIC entry fires with the grid instants passed counted when it is late, and is armed anew. -/
theorem State.fireMono_periodic {due first period skips : Nat} (ht : e.timing = .periodic due first period skips)
    {f : Fired}
    (hf : f = s.fire pos.id (if pos.late then e.addSkips (passedGrid s.runTime pos.due first period) else e)
      (.run pos.due) pos.late false) :
    s.fireMono pos =
      if f.final then f.state.freeEntry pos.id
      else f.state.armMono pos.id f.entry (nextDue s.runTime pos.due first period pos.late) false := by
  subst hf
  simp only [State.fireMono, he, ht]

/-- R80, R83: an AFTER_CAPTURE entry that the firing does not end waits again, or ends with CAPTURE_LOST when its input
is no longer its owner's; the record names the entry as it stood before the firing. -/
theorem State.fireMono_afterCapture {input : Input} {delay : Nat} {rearm : Bool} {due : Option Nat}
    (ht : e.timing = .afterCapture input delay rearm due) {f : Fired}
    (hf : f = s.fire pos.id e (.run pos.due) pos.late (!rearm)) :
    s.fireMono pos =
      if f.final then f.state.freeEntry pos.id
      else if s.ownsInput e.owner input then f.state.park pos.id f.entry .waiting
      else (f.state.offer e.owner (endedRecord s pos.id e .captureLost)).freeEntry pos.id := by
  have hstands : (f.state.slot pos.id).entry = some e := by rw [hf, State.fire_slot, he]
  have howns : f.state.ownsInput e.owner input = s.ownsInput e.owner input := by
    simp only [hf, State.ownsInput, State.fire_input]
  have hrecord : endedRecord f.state pos.id e .captureLost = endedRecord s pos.id e .captureLost := by
    simp only [hf, endedRecord, State.fire_slot, State.fire_runTime]
  rw [← hrecord, ← howns, ← State.endEntry_of_entry _ hstands, hf]
  simp only [State.fireMono, he, ht]

end FireMono

/-- Settles O34: the list's head is not due, or it fires by its kind. -/
theorem monoFiring : Obligations.MonoFiring := by
  intro s pos rest hr hm u
  refine ⟨execMonoFiring_notDue hr hm, fun e hdue he => ?_⟩
  have hexec : exec .monoFiring s = .next (u.fireMono pos) := execMonoFiring_due hr hm hdue
  have hu : (u.slot pos.id).entry = some e := he
  cases ht : e.timing with
  | once due => exact hexec.trans (congrArg _ (State.fireMono_once hu ht))
  | periodic due first period skips =>
    rw [State.fireMono_periodic hu ht rfl, Entry.addSkips_periodic ht] at hexec
    refine ⟨fun hf => hexec.trans (congrArg _ (if_pos hf)), fun hf => ?_, fun hl hp hlag hfit => ?_,
      fun hl hp hfirst hfit => ?_⟩
    · exact hexec.trans (congrArg _ (if_neg (Bool.eq_false_iff.1 hf)))
    · have hnext := nextDue_onTime (first := first) hp hlag hfit
      rw [← hl] at hnext
      exact hnext
    · have hnext := nextDue_late (due := pos.due) (by omega : 0 < period) hfirst hfit
      rw [← hl] at hnext
      exact hnext
  | pattern pat next policy skips => trivial
  | afterCapture input delay rearm due =>
    rw [State.fireMono_afterCapture hu ht rfl] at hexec
    refine ⟨fun hf => hexec.trans (congrArg _ (if_pos hf)), fun hf hi => ?_, fun hf hi => ?_⟩
    · rw [if_neg (Bool.eq_false_iff.1 hf)] at hexec
      exact hexec.trans (congrArg _ (if_pos hi))
    · rw [if_neg (Bool.eq_false_iff.1 hf)] at hexec
      exact hexec.trans (congrArg _ (if_neg (Bool.eq_false_iff.1 hi)))

end Sys2Proof.Machine
end

section
/-! SUPPORT. The searches of a pattern are exact (R92, R94): each level of the search, from the second up to the year, is
one search over a digit with a search over the lesser digits inside it.
-/

namespace Sys2Proof.Machine

/-! ### First elements

A search is exact when it answers a least element of the set it looks through, or nothing when that set is empty. -/

/-- The answer `r` is a least element of `S`, and there is one unless `S` is empty. -/
def IsFirst {α : Type} (le : α → α → Prop) (S : α → Prop) (r : Option α) : Prop :=
  (∀ a, r = some a → S a ∧ ∀ b, S b → le a b) ∧ (r = none → ∀ b, ¬S b)

section IsFirst

variable {α β : Type} {le : α → α → Prop} {S T : α → Prop} {r r' : Option α}

theorem isFirst_some {a : α} (ha : S a) (h : ∀ b, S b → le a b) : IsFirst le S (some a) :=
  ⟨fun _ e => Option.some.inj e ▸ ⟨ha, h⟩, nofun⟩

theorem isFirst_none (h : ∀ b, ¬S b) : IsFirst le S none :=
  ⟨nofun, fun _ => h⟩

theorem IsFirst.congr (h : IsFirst le S r) (hST : ∀ a, T a ↔ S a) : IsFirst le T r := by
  rwa [show T = S from funext fun a => propext (hST a)]

/-- The search of one set and then of another whose elements all come later. -/
theorem IsFirst.orElse (hr : IsFirst le S r) (hr' : IsFirst le T r') (hsep : ∀ a b, S a → T b → le a b) :
    IsFirst le (fun a => S a ∨ T a) (r.or r') := by
  cases r with
  | some a =>
    obtain ⟨ha, hle⟩ := hr.1 a rfl
    exact isFirst_some (.inl ha) fun b hb => hb.elim (hle b) (hsep a b ha)
  | none =>
    have hempty := hr.2 rfl
    exact hr'.congr fun a => or_iff_right (hempty a)

/-- A search carried over along `g`, which reaches every element looked for. -/
theorem IsFirst.map {le' : β → β → Prop} {S' : β → Prop} {g : α → β} (h : IsFirst le S r)
    (hS : ∀ b, S' b ↔ ∃ a, S a ∧ g a = b) (hle : ∀ a b, S a → S b → le a b → le' (g a) (g b)) :
    IsFirst le' S' (r.map g) := by
  cases r with
  | none =>
    refine isFirst_none fun b hb => ?_
    obtain ⟨a, ha, -⟩ := (hS b).1 hb
    exact h.2 rfl a ha
  | some a =>
    obtain ⟨ha, hleast⟩ := h.1 a rfl
    refine isFirst_some ((hS _).2 ⟨a, ha, rfl⟩) fun b hb => ?_
    obtain ⟨c, hc, rfl⟩ := (hS b).1 hb
    exact hle a c ha hc (hleast c hc)

/-- A search under a condition that is checked first. -/
theorem IsFirst.guard {c : Prop} [Decidable c] (h : c → IsFirst le S r) :
    IsFirst le (fun a => c ∧ S a) (if c then r else none) := by
  split
  · next hc => exact (h hc).congr fun a => and_iff_right hc
  · next hc => exact isFirst_none fun b hb => hc hb.1

end IsFirst

/-! ### One level of a search -/

section Level

variable {α : Type} {le : α → α → Prop}

theorem firstSome_isFirst {S : Nat → α → Prop} {f : Nat → Option α} {fuel start : Nat}
    (hf : ∀ n, start ≤ n → n < start + fuel → IsFirst le (S n) (f n))
    (hsep : ∀ m n a b, m < n → S m a → S n b → le a b) :
    IsFirst le (fun a => ∃ n, start ≤ n ∧ n < start + fuel ∧ S n a) (firstSome f fuel start) := by
  induction fuel generalizing start with
  | zero =>
    refine isFirst_none fun b hb => ?_
    obtain ⟨n, hn, hlt, -⟩ := hb
    omega
  | succ fuel ih =>
    have hrest := ih (start := start + 1) fun n hn hlt => hf n (by omega) (by omega)
    have hsplit : firstSome f (fuel + 1) start = (f start).or (firstSome f fuel (start + 1)) := by
      rw [firstSome]
      cases f start <;> rfl
    rw [hsplit]
    refine ((hf start le_rfl (by omega)).orElse hrest ?_).congr fun a => ?_
    · rintro a b ha ⟨n, hn, -, hb⟩
      exact hsep start n a b (by omega) ha hb
    · constructor
      · rintro ⟨n, hn, hlt, ha⟩
        rcases Nat.eq_or_lt_of_le hn with rfl | hn
        · exact .inl ha
        · exact .inr ⟨n, hn, by omega, ha⟩
      · rintro (ha | ⟨n, hn, hlt, ha⟩)
        · exact ⟨start, le_rfl, by omega, ha⟩
        · exact ⟨n, by omega, by omega, ha⟩

theorem firstWhere_isFirst (ok : Nat → Bool) (start stop : Nat) :
    IsFirst (· ≤ ·) (fun n => start ≤ n ∧ n < stop ∧ ok n = true) (firstWhere ok start stop) := by
  have hdigit : ∀ n, IsFirst (· ≤ ·) (fun a => ok n = true ∧ a = n) (if ok n then some n else none) := fun n =>
    IsFirst.guard fun _ => isFirst_some rfl fun b hb => hb.ge
  refine (firstSome_isFirst (fun n _ _ => hdigit n) ?_).congr fun a => ?_
  · rintro m n a b hlt ⟨-, rfl⟩ ⟨-, rfl⟩
    exact hlt.le
  · constructor
    · rintro ⟨hge, hlt, hok⟩
      exact ⟨a, hge, by omega, hok, rfl⟩
    · rintro ⟨n, hge, hlt, hok, rfl⟩
      exact ⟨hge, by omega, hok⟩

/-- A digit before what follows it. -/
def lexLe (le : α → α → Prop) (x y : Nat × α) : Prop := x.1 < y.1 ∨ (x.1 = y.1 ∧ le x.2 y.2)

/-- What lies at or after digit `start` followed by the lower limit `after`. -/
def lexFrom (start : Nat) (after : α → Prop) (x : Nat × α) : Prop := start < x.1 ∨ (x.1 = start ∧ after x.2)

/-- A digit put before the answer of a search. -/
theorem IsFirst.digit {S : α → Prop} {r : Option α} (h : IsFirst le S r) (n : Nat) :
    IsFirst (lexLe le) (fun x => x.1 = n ∧ S x.2) (r.map (fun a => (n, a))) := by
  refine h.map (fun x => ?_) fun a b _ _ hab => .inr ⟨rfl, hab⟩
  constructor
  · rintro ⟨rfl, hx⟩
    exact ⟨x.2, hx, rfl⟩
  · rintro ⟨a, ha, rfl⟩
    exact ⟨rfl, ha⟩

/-- One level: a search over a digit from `start` to `stop`, with the search over the rest inside it, which has a lower limit
of its own at `start` alone. -/
theorem firstSome_level {T : Nat → α → Prop} {after : α → Prop} {f : Nat → Option (Nat × α)} {g : Nat → Option α}
    {start stop : Nat} (hfg : ∀ n, f n = (g n).map (fun a => (n, a)))
    (hstart : IsFirst le (fun a => T start a ∧ after a) (g start))
    (hlater : ∀ n, start < n → n < stop → IsFirst le (T n) (g n)) :
    IsFirst (lexLe le) (fun x => T x.1 x.2 ∧ x.1 < stop ∧ lexFrom start after x) (firstSome f (stop - start) start) := by
  have hdigit : ∀ n, start ≤ n → n < start + (stop - start) →
      IsFirst (lexLe le) (fun x => x.1 = n ∧ T x.1 x.2 ∧ lexFrom start after x) (f n) := by
    intro n hge hlt
    rw [hfg]
    rcases Nat.eq_or_lt_of_le hge with rfl | hgt
    · refine (hstart.digit _).congr fun x => and_congr_right fun hx => ?_
      simp [lexFrom, hx]
    · refine ((hlater n hgt (by omega)).digit n).congr fun x => and_congr_right fun hx => ?_
      simp [lexFrom, hx, hgt]
  refine (firstSome_isFirst hdigit ?_).congr fun x => ?_
  · rintro m n a b hlt ⟨rfl, -⟩ ⟨rfl, -⟩
    exact .inl hlt
  · constructor
    · rintro ⟨hT, hlt, hfrom⟩
      have hge : start ≤ x.1 := hfrom.elim Nat.le_of_lt fun h => h.1.ge
      exact ⟨x.1, hge, by omega, rfl, hT, hfrom⟩
    · rintro ⟨n, hge, hlt, rfl, hT, hfrom⟩
      exact ⟨hT, by omega, hfrom⟩

/-- A level whose digit the pattern may fix. -/
theorem firstSome_field {T : α → Prop} {after : α → Prop} {f : Nat → Option (Nat × α)} {first later : Option α}
    {field : Option Nat} {start stop : Nat}
    (hf : ∀ n, f n = if agrees field n then (if n = start then first else later).map (fun a => (n, a)) else none)
    (hfirst : IsFirst le (fun a => T a ∧ after a) first) (hlater : IsFirst le T later) :
    IsFirst (lexLe le) (fun x => (agrees field x.1 = true ∧ T x.2) ∧ x.1 < stop ∧ lexFrom start after x)
      (firstSome f (stop - start) start) := by
  refine firstSome_level (T := fun n a => agrees field n = true ∧ T a)
    (g := fun n => if agrees field n then (if n = start then first else later) else none) (fun n => ?_) ?_ ?_
  · rw [hf]
    split <;> rfl
  · rw [if_pos rfl]
    exact (IsFirst.guard fun _ => hfirst).congr fun a => and_assoc
  · intro n hn _
    rw [if_neg hn.ne']
    exact IsFirst.guard fun _ => hlater

end Level

end Sys2Proof.Machine
end

section
/-! SUPPORT. What a pattern matches, and that its two searches give exactly the earliest match (R92, R94).
-/

namespace Sys2Proof.Machine

/-! ### Order of records

Dates come before times of day, and each is ordered by its greatest field first. -/

theorem Civil.dayNumber_lt_of_year_lt {a b : Civil} (ha : a.OnCalendar) (h : a.year < b.year) :
    a.dayNumber < b.dayNumber := by
  have hya := ha.year_ge
  have hyear : daysBeforeYear (a.year - 2000 + 1) ≤ daysBeforeYear (b.year - 2000) := daysBeforeYear_mono (by omega)
  have hday := ha.dayNumber_lt
  have hb' : daysBeforeYear (b.year - 2000) ≤ b.dayNumber := by
    rw [Civil.dayNumber]
    omega
  omega

theorem Civil.dayNumber_lt_of_month_lt {a b : Civil} (ha : a.OnCalendar) (hy : a.year = b.year)
    (h : a.month < b.month) : a.dayNumber < b.dayNumber := by
  have hmonth := daysOfMonths_pred_add (y := a.year) ha.month_ge
  have hmono : daysOfMonths a.year a.month ≤ daysOfMonths a.year (b.month - 1) := daysOfMonths_mono _ (by omega)
  have hday := ha.day_ge
  have hday' := ha.day_le
  rw [Civil.dayNumber, Civil.dayNumber, ← hy]
  omega

/-- The later date is at or after the earlier one's next day number, which need not be a date of its month. -/
theorem Civil.dayNumber_lt_iff {a b : Civil} (ha : a.OnCalendar) (hb : b.OnCalendar) :
    a.dayNumber < b.dayNumber ↔ lexFrom a.year (lexFrom a.month (a.day + 1 ≤ ·)) (b.year, b.month, b.day) := by
  have hlt : ∀ {c d : Civil}, c.OnCalendar → d.OnCalendar →
      c.year < d.year ∨ (d.year = c.year ∧ (c.month < d.month ∨ (d.month = c.month ∧ c.day + 1 ≤ d.day))) →
      c.dayNumber < d.dayNumber := by
    rintro c d hc hd (hy | ⟨hy, hm | ⟨hm, hday⟩⟩)
    · exact Civil.dayNumber_lt_of_year_lt hc hy
    · exact Civil.dayNumber_lt_of_month_lt hc hy.symm hm
    · have := hc.day_ge
      rw [Civil.dayNumber, Civil.dayNumber, hy, hm]
      omega
  refine ⟨fun h => ?_, hlt ha hb⟩
  by_contra hno
  simp only [lexFrom] at hno
  have hge : b.year < a.year ∨ (a.year = b.year ∧ (b.month < a.month ∨ (a.month = b.month ∧ b.day ≤ a.day))) := by
    omega
  by_cases hsame : a.year = b.year ∧ a.month = b.month ∧ a.day = b.day
  · obtain ⟨hy, hm, hd⟩ := hsame
    rw [Civil.dayNumber, Civil.dayNumber, hy, hm, hd] at h
    omega
  · have := hlt hb ha (by omega)
    omega

theorem Civil.dayNumber_eq_iff {a b : Civil} (ha : a.OnCalendar) (hb : b.OnCalendar) :
    a.dayNumber = b.dayNumber ↔ a.year = b.year ∧ a.month = b.month ∧ a.day = b.day := by
  have hab := Civil.dayNumber_lt_iff ha hb
  have hba := Civil.dayNumber_lt_iff hb ha
  simp only [lexFrom] at hab hba
  omega

theorem Civil.dayNumber_le_of_lexLe {a b : Civil} (ha : a.OnCalendar) (hb : b.OnCalendar)
    (h : lexLe (lexLe (· ≤ ·)) (a.year, a.month, a.day) (b.year, b.month, b.day)) : a.dayNumber ≤ b.dayNumber := by
  have hba := Civil.dayNumber_lt_iff hb ha
  simp only [lexFrom, lexLe] at hba h
  omega

theorem Civil.timeOfDay_le_iff {a b : Civil} (ha : a.OnCalendar) (hb : b.OnCalendar) :
    a.timeOfDay ≤ b.timeOfDay ↔
      lexFrom a.hour (lexFrom a.minute (fun s => lexFrom a.second (a.micro ≤ ·) (s, b.micro)))
        (b.hour, b.minute, b.second) := by
  have := ha.minute_le
  have := ha.second_le
  have := ha.micro_le
  have := hb.minute_le
  have := hb.second_le
  have := hb.micro_le
  simp only [lexFrom, Civil.timeOfDay]
  omega

theorem Civil.timeOfDay_le_of_lexLe {a b : Civil} (ha : a.OnCalendar) (hb : b.OnCalendar) (hus : a.micro = b.micro)
    (h : lexLe (lexLe (· ≤ ·)) (a.hour, a.minute, a.second) (b.hour, b.minute, b.second)) :
    a.timeOfDay ≤ b.timeOfDay := by
  rw [Civil.timeOfDay_le_iff ha hb]
  simp only [lexLe, lexFrom] at h ⊢
  omega

theorem Civil.count_le_iff {a b : Civil} (ha : a.OnCalendar) (hb : b.OnCalendar) :
    a.count ≤ b.count ↔
      (a.dayNumber = b.dayNumber ∧ a.timeOfDay ≤ b.timeOfDay) ∨ a.dayNumber < b.dayNumber := by
  have hta := ha.timeOfDay_lt
  have htb := hb.timeOfDay_lt
  simp only [Civil.count, dayMicros] at *
  omega

/-- The order of civil instants. -/
def Civil.CountLe (a b : Civil) : Prop := a.count ≤ b.count

theorem agrees_iff (field : Option Nat) (value : Nat) :
    agrees field value = true ↔ ∀ v, field = some v → value = v := by
  cases field with
  | none => simp [agrees]
  | some w => simp only [agrees, beq_iff_eq, Option.some.injEq, forall_eq, eq_comm (a := w)]

namespace Pattern

variable (p : Pattern)

/-! ### What a pattern matches (R92) -/

theorem matchesAt_iff (c : Civil) :
    p.matchesAt c = true ↔
      (∀ v : Nat, p.month = some v → c.month = v) ∧ (∀ v : Nat, p.day = some v → c.day = v) ∧
      (∀ v : Nat, p.weekday = some v → c.weekday = v) ∧ (∀ v : Nat, p.hour = some v → c.hour = v) ∧
      (∀ v : Nat, p.minute = some v → c.minute = v) ∧ (∀ v : Nat, p.second = some v → c.second = v) ∧
      c.micro = p.micro := by
  simp only [matchesAt, dateOk, Bool.and_eq_true, agrees_iff, beq_iff_eq, and_assoc, eq_comm (a := p.micro)]
  rfl

/-- A second of a minute that the pattern admits. -/
def SecondOk (s : Nat) : Prop := agrees p.second s = true ∧ s < 60

/-- A minute and second of an hour that the pattern admits. -/
def MinuteOk (x : Nat × Nat) : Prop := (agrees p.minute x.1 = true ∧ p.SecondOk x.2) ∧ x.1 < 60

/-- A time of day that the pattern admits. -/
def TimeOk (x : Nat × Nat × Nat) : Prop := (agrees p.hour x.1 = true ∧ p.MinuteOk x.2) ∧ x.1 < 24

/-- A day of month `m` of year `y` that the pattern admits. -/
def DayOk (y m d : Nat) : Prop := p.dateOk y m d = true ∧ 1 ≤ d ∧ d ≤ monthLength y m

/-- A month and day of year `y` that the pattern admits. -/
def MonthOk (y : Nat) (x : Nat × Nat) : Prop := p.DayOk y x.1 x.2 ∧ 1 ≤ x.1 ∧ x.1 < 13

/-- A date that the pattern admits. -/
def DateOk (x : Nat × Nat × Nat) : Prop := p.MonthOk x.1 x.2 ∧ 2000 ≤ x.1 ∧ x.1 < 2200

/-- A match in the civil range. -/
def IsMatch (c : Civil) : Prop := c.wellFormed = true ∧ p.matchesAt c = true

variable {p}

theorem IsMatch.onCalendar {c : Civil} (h : p.IsMatch c) : c.OnCalendar := ((Civil.wellFormed_iff c).1 h.1).1

/-- A match is a date, a time of day and a microsecond that the pattern admits. -/
theorem isMatch_iff (hp : p.micro ≤ 999999) (c : Civil) :
    p.IsMatch c ↔
      p.DateOk (c.year, c.month, c.day) ∧ p.TimeOk (c.hour, c.minute, c.second) ∧ c.micro = p.micro := by
  simp only [IsMatch, Civil.wellFormed_iff, matchesAt, Bool.and_eq_true, beq_iff_eq, DateOk, MonthOk, DayOk, TimeOk,
    MinuteOk, SecondOk]
  constructor
  · rintro ⟨⟨⟨hy, hm, hm', hd, hd', hh, hmi, hs, hu⟩, hy'⟩, ⟨⟨⟨hdate, hhour⟩, hminute⟩, hsecond⟩, hmicro⟩
    refine ⟨⟨⟨⟨hdate, hd, hd'⟩, hm, ?_⟩, hy, ?_⟩, ⟨⟨hhour, ⟨hminute, hsecond, ?_⟩, ?_⟩, ?_⟩, hmicro.symm⟩ <;> omega
  · rintro ⟨⟨⟨⟨hdate, hd, hd'⟩, hm, hm'⟩, hy, hy'⟩, ⟨⟨hhour, ⟨hminute, hsecond, hs⟩, hmi⟩, hh⟩, hmicro⟩
    refine ⟨⟨⟨hy, hm, ?_, hd, hd', ?_, ?_, ?_, ?_⟩, ?_⟩, ⟨⟨⟨hdate, hhour⟩, hminute⟩, hsecond⟩, hmicro.symm⟩ <;> omega

theorem isMatch_instant (hp : p.micro ≤ 999999) (date time : Nat × Nat × Nat) :
    p.IsMatch (p.instant date time) ↔ p.DateOk date ∧ p.TimeOk time := by
  rw [isMatch_iff hp]
  exact and_congr_right fun _ => and_iff_left rfl

/-- The record of a match is formed again from its date and time of day. -/
theorem instant_of_isMatch {c : Civil} (h : p.IsMatch c) :
    p.instant (c.year, c.month, c.day) (c.hour, c.minute, c.second) = c := by
  obtain ⟨-, -, -, -, -, -, hmicro⟩ := (p.matchesAt_iff c).1 h.2
  rw [instant, ← hmicro]

/-! ### The search for a time of day -/

theorem secondFrom_isFirst (s us : Nat) :
    IsFirst (· ≤ ·) (fun s' => p.SecondOk s' ∧ lexFrom s (us ≤ ·) (s', p.micro)) (p.secondFrom s us) := by
  refine (firstWhere_isFirst (agrees p.second) _ 60).congr fun s' => ?_
  have hlimit : lexFrom s (us ≤ ·) (s', p.micro) ↔ (if us ≤ p.micro then s else s + 1) ≤ s' := by
    simp only [lexFrom]
    split <;> omega
  rw [hlimit, SecondOk, and_comm, and_comm (a := agrees p.second s' = true)]

theorem secondFrom_zero_isFirst : IsFirst (· ≤ ·) p.SecondOk (p.secondFrom 0 0) :=
  (secondFrom_isFirst 0 0).congr fun s => (and_iff_left (by simp only [lexFrom]; omega)).symm

theorem minuteFrom_isFirst (m s us : Nat) :
    IsFirst (lexLe (· ≤ ·)) (fun x => p.MinuteOk x ∧ lexFrom m (fun s' => lexFrom s (us ≤ ·) (s', p.micro)) x)
      (p.minuteFrom m s us) :=
  (firstSome_field (fun _ => rfl) (secondFrom_isFirst s us) secondFrom_zero_isFirst).congr fun _ => and_assoc

theorem minuteFrom_zero_isFirst : IsFirst (lexLe (· ≤ ·)) p.MinuteOk (p.minuteFrom 0 0 0) :=
  (minuteFrom_isFirst 0 0 0).congr fun x => (and_iff_left (by simp only [lexFrom]; omega)).symm

theorem hourFrom_isFirst (h m s us : Nat) :
    IsFirst (lexLe (lexLe (· ≤ ·)))
      (fun x => p.TimeOk x ∧ lexFrom h (lexFrom m (fun s' => lexFrom s (us ≤ ·) (s', p.micro))) x)
      (p.hourFrom h m s us) :=
  (firstSome_field (fun _ => rfl) (minuteFrom_isFirst m s us) minuteFrom_zero_isFirst).congr fun _ => and_assoc

theorem hourFrom_zero_isFirst : IsFirst (lexLe (lexLe (· ≤ ·))) p.TimeOk (p.hourFrom 0 0 0 0) :=
  (hourFrom_isFirst 0 0 0 0).congr fun x => (and_iff_left (by simp only [lexFrom]; omega)).symm

/-! ### The search for a date -/

theorem dayFrom_isFirst (y m : Nat) {d : Nat} (hd : 1 ≤ d) :
    IsFirst (· ≤ ·) (fun d' => p.DayOk y m d' ∧ d ≤ d') (p.dayFrom y m d) := by
  refine (IsFirst.guard fun _ => firstWhere_isFirst (p.dateOk y m) d _).congr fun d' => ?_
  have hmonth : p.dateOk y m d' = true → agrees p.month m = true := fun h => by
    simp only [dateOk, Bool.and_eq_true, and_assoc] at h
    exact h.1
  constructor
  · rintro ⟨⟨hok, -, hle⟩, hge⟩
    exact ⟨hmonth hok, hge, by omega, hok⟩
  · rintro ⟨-, hge, hlt, hok⟩
    exact ⟨⟨hok, by omega, by omega⟩, hge⟩

theorem monthFrom_isFirst (y : Nat) {m d : Nat} (hm : 1 ≤ m) (hd : 1 ≤ d) :
    IsFirst (lexLe (· ≤ ·)) (fun x => p.MonthOk y x ∧ lexFrom m (d ≤ ·) x) (p.monthFrom y m d) := by
  refine (firstSome_level (T := p.DayOk y) (after := (d ≤ ·))
    (g := fun m' => if m' = m then p.dayFrom y m' d else p.dayFrom y m' 1) (fun _ => rfl) ?_ ?_).congr fun x => ?_
  · rw [if_pos rfl]
    exact dayFrom_isFirst y m hd
  · intro m' hlt _
    rw [if_neg hlt.ne']
    exact (dayFrom_isFirst y m' le_rfl).congr fun d' => (and_iff_left_of_imp fun h => h.2.1).symm
  · constructor
    · rintro ⟨⟨hday, -, hlt⟩, hfrom⟩
      exact ⟨hday, hlt, hfrom⟩
    · rintro ⟨hday, hlt, hfrom⟩
      exact ⟨⟨hday, by simp only [lexFrom] at hfrom; omega, hlt⟩, hfrom⟩

theorem dateFrom_isFirst {y m d : Nat} (hy : 2000 ≤ y) (hm : 1 ≤ m) (hd : 1 ≤ d) :
    IsFirst (lexLe (lexLe (· ≤ ·))) (fun x => p.DateOk x ∧ lexFrom y (lexFrom m (d ≤ ·)) x) (p.dateFrom y m d) := by
  refine (firstSome_level (T := p.MonthOk) (after := lexFrom m (d ≤ ·))
    (g := fun y' => if y' = y then p.monthFrom y' m d else p.monthFrom y' 1 1) (fun _ => rfl) ?_ ?_).congr fun x => ?_
  · rw [if_pos rfl]
    exact monthFrom_isFirst y hm hd
  · intro y' hlt _
    rw [if_neg hlt.ne']
    refine (monthFrom_isFirst y' le_rfl le_rfl).congr fun x => (and_iff_left_of_imp ?_).symm
    rintro ⟨⟨-, hday, -⟩, hmonth, -⟩
    simp only [lexFrom]
    omega
  · constructor
    · rintro ⟨⟨hmonth, -, hlt⟩, hfrom⟩
      exact ⟨hmonth, hlt, hfrom⟩
    · rintro ⟨hmonth, hlt, hfrom⟩
      exact ⟨⟨hmonth, by simp only [lexFrom] at hfrom; omega, hlt⟩, hfrom⟩

/-! ### The search at or after an instant (R94) -/

theorem countLe_of_lexLe {a b : Civil} (ha : p.IsMatch a) (hb : p.IsMatch b)
    (hdate : lexLe (lexLe (· ≤ ·)) (a.year, a.month, a.day) (b.year, b.month, b.day))
    (htime : lexLe (lexLe (· ≤ ·)) (a.hour, a.minute, a.second) (b.hour, b.minute, b.second)) : a.CountLe b := by
  obtain ⟨-, -, -, -, -, -, hua⟩ := (p.matchesAt_iff a).1 ha.2
  obtain ⟨-, -, -, -, -, -, hub⟩ := (p.matchesAt_iff b).1 hb.2
  have hday := Civil.dayNumber_le_of_lexLe ha.onCalendar hb.onCalendar hdate
  have hsec := Civil.timeOfDay_le_of_lexLe ha.onCalendar hb.onCalendar (hua.trans hub.symm) htime
  rw [Civil.CountLe, Civil.count_le_iff ha.onCalendar hb.onCalendar]
  omega

section Search

variable {x : Civil} (hp : p.micro ≤ 999999) (hx : x.wellFormed = true)
include hp hx

theorem sameDay_isFirst :
    IsFirst Civil.CountLe (fun c => p.IsMatch c ∧ x.dayNumber = c.dayNumber ∧ x.timeOfDay ≤ c.timeOfDay) (p.sameDay x) := by
  obtain ⟨hcal, hyear⟩ := (Civil.wellFormed_iff x).1 hx
  have hdate : p.dateOk x.year x.month x.day = true → p.DateOk (x.year, x.month, x.day) := fun h =>
    ⟨⟨⟨h, hcal.day_ge, hcal.day_le⟩, hcal.month_ge, Nat.lt_succ_of_le hcal.month_le⟩, hcal.year_ge,
      Nat.lt_succ_of_le hyear⟩
  have htime : ∀ {c : Civil}, p.IsMatch c → (x.timeOfDay ≤ c.timeOfDay ↔
      lexFrom x.hour (lexFrom x.minute (fun s' => lexFrom x.second (x.micro ≤ ·) (s', p.micro)))
        (c.hour, c.minute, c.second)) := fun hc => by
    rw [Civil.timeOfDay_le_iff hcal hc.onCalendar, ((isMatch_iff hp _).1 hc).2.2]
  refine (IsFirst.guard (S := fun c => p.IsMatch c ∧ x.dayNumber = c.dayNumber ∧ x.timeOfDay ≤ c.timeOfDay)
    fun hok => ?_).congr fun c => ?_
  · refine (hourFrom_isFirst x.hour x.minute x.second x.micro).map (fun c => ?_) fun a b ha hb hab => ?_
    · constructor
      · rintro ⟨hc, hday, hle⟩
        obtain ⟨hy, hm, hd⟩ := (Civil.dayNumber_eq_iff hcal hc.onCalendar).1 hday
        refine ⟨(c.hour, c.minute, c.second), ⟨((isMatch_iff hp _).1 hc).2.1, (htime hc).1 hle⟩, ?_⟩
        rw [hy, hm, hd, instant_of_isMatch hc]
      · rintro ⟨time, ⟨htok, hfrom⟩, rfl⟩
        have hc := (isMatch_instant hp _ _).2 ⟨hdate hok, htok⟩
        exact ⟨hc, rfl, (htime hc).2 hfrom⟩
    · exact countLe_of_lexLe ((isMatch_instant hp _ _).2 ⟨hdate hok, ha.1⟩)
        ((isMatch_instant hp _ _).2 ⟨hdate hok, hb.1⟩) (.inr ⟨rfl, .inr ⟨rfl, le_rfl⟩⟩) hab
  · refine (and_iff_right_of_imp ?_).symm
    rintro ⟨hc, hday, -⟩
    obtain ⟨hy, hm, hd⟩ := (Civil.dayNumber_eq_iff hcal hc.onCalendar).1 hday
    rw [hy, hm, hd]
    exact ((isMatch_iff hp _).1 hc).1.1.1.1

theorem laterDay_isFirst :
    IsFirst Civil.CountLe (fun c => p.IsMatch c ∧ x.dayNumber < c.dayNumber) (p.laterDay x) := by
  obtain ⟨hcal, -⟩ := (Civil.wellFormed_iff x).1 hx
  have hdate := dateFrom_isFirst (p := p) hcal.year_ge hcal.month_ge (d := x.day + 1) (by omega)
  have htime := hourFrom_zero_isFirst (p := p)
  have hparts : ∀ {c : Civil}, p.IsMatch c → x.dayNumber < c.dayNumber →
      (p.DateOk (c.year, c.month, c.day) ∧
        lexFrom x.year (lexFrom x.month (x.day + 1 ≤ ·)) (c.year, c.month, c.day)) ∧
      p.TimeOk (c.hour, c.minute, c.second) := fun hc hlt => by
    obtain ⟨hd, ht, -⟩ := (isMatch_iff hp _).1 hc
    exact ⟨⟨hd, (Civil.dayNumber_lt_iff hcal hc.onCalendar).1 hlt⟩, ht⟩
  unfold laterDay
  cases hd : p.dateFrom x.year x.month (x.day + 1) with
  | none => exact isFirst_none fun c hc => hdate.2 hd _ (hparts hc.1 hc.2).1
  | some date =>
    cases ht : p.hourFrom 0 0 0 0 with
    | none => exact isFirst_none fun c hc => htime.2 ht _ (hparts hc.1 hc.2).2
    | some time =>
      obtain ⟨⟨hdok, hfrom⟩, hdleast⟩ := hdate.1 date hd
      obtain ⟨htok, htleast⟩ := htime.1 time ht
      have hmatch := (isMatch_instant hp date time).2 ⟨hdok, htok⟩
      refine isFirst_some ⟨hmatch, (Civil.dayNumber_lt_iff hcal hmatch.onCalendar).2 hfrom⟩ fun c hc => ?_
      obtain ⟨hcd, hct⟩ := hparts hc.1 hc.2
      exact countLe_of_lexLe hmatch hc.1 (hdleast _ hcd) (htleast _ hct)

theorem atOrAfter_isFirst :
    IsFirst Civil.CountLe (fun c => p.IsMatch c ∧ x.count ≤ c.count) (p.atOrAfter x) := by
  obtain ⟨hcal, -⟩ := (Civil.wellFormed_iff x).1 hx
  have hor : p.atOrAfter x = (p.sameDay x).or (p.laterDay x) := by
    unfold atOrAfter
    cases p.sameDay x <;> rfl
  rw [hor]
  refine ((sameDay_isFirst hp hx).orElse (laterDay_isFirst hp hx) ?_).congr fun c => ?_
  · rintro a b ⟨ha, hda, -⟩ ⟨hb, hdb⟩
    exact (Civil.count_le_iff ha.onCalendar hb.onCalendar).2 (.inr (by omega))
  · rw [← and_or_left]
    exact and_congr_right fun hc => Civil.count_le_iff hcal hc.onCalendar

/-- R94: what comes strictly after an instant comes at or after the next microsecond; at the last instant of 2199 there is
none. -/
theorem strictlyAfter_isFirst :
    IsFirst Civil.CountLe (fun c => p.IsMatch c ∧ x.count < c.count) (p.strictlyAfter x) := by
  obtain ⟨hcal, -⟩ := (Civil.wellFormed_iff x).1 hx
  obtain ⟨hnext, hcount⟩ := Civil.advance_spec (n := 1) hcal (by omega)
  unfold strictlyAfter
  dsimp only
  split
  · next hy =>
    refine (atOrAfter_isFirst hp (Civil.advance_wellFormed hx (by omega) hy)).congr fun c => ?_
    rw [hcount]
    rfl
  · next hy =>
    refine isFirst_none fun c hc => ?_
    have hend := mt hnext.count_lt_iff.1 hy
    have hc' := (Civil.wellFormed_iff_count_lt hc.1.onCalendar).1 hc.1.1
    have hafter := hc.2
    omega

end Search

theorem micro_le_of_inRange (h : p.inRange = true) : p.micro ≤ 999999 := by
  simp only [inRange, Bool.and_eq_true, decide_eq_true_eq] at h
  exact h.2

end Pattern

/-- Settles O36: the fields one by one, and the two searches as searches for a least element
(`Pattern.atOrAfter_isFirst`, `Pattern.strictlyAfter_isFirst`). -/
theorem patternSearchIsExact : Obligations.PatternSearchIsExact := by
  refine ⟨fun pat c => pat.matchesAt_iff c, fun pat x hp hx => ?_⟩
  have hfrom := Pattern.atOrAfter_isFirst (Pattern.micro_le_of_inRange hp) hx
  have hafter := Pattern.strictlyAfter_isFirst (Pattern.micro_le_of_inRange hp) hx
  refine ⟨fun m hm => ?_, fun hnone y hy hmatch => ?_, fun m hm => ?_, fun hnone y hy hmatch => ?_⟩
  · obtain ⟨⟨⟨hwf, hmatch⟩, hle⟩, hleast⟩ := hfrom.1 m hm
    exact ⟨hwf, hmatch, hle, fun y hy hmatch hxy => hleast y ⟨⟨hy, hmatch⟩, hxy⟩⟩
  · exact Nat.lt_of_not_le fun hxy => hfrom.2 hnone y ⟨⟨hy, hmatch⟩, hxy⟩
  · obtain ⟨⟨⟨hwf, hmatch⟩, hlt⟩, hleast⟩ := hafter.1 m hm
    exact ⟨hwf, hmatch, hlt, fun y hy hmatch hxy => hleast y ⟨⟨hy, hmatch⟩, hxy⟩⟩
  · exact Nat.le_of_not_lt fun hxy => hafter.2 hnone y ⟨⟨hy, hmatch⟩, hxy⟩

end Sys2Proof.Machine
end

section
/-! SUPPORT. PATTERN entries: the firing of the head of the CIVIL due list, steps of civil time, the count of matches that a
forward step passes, and the first set (R95, R98 to R100, R102 to R105).
-/

namespace Sys2Proof.Machine

/-! ### The matches that a forward step passes (R102) -/

namespace Pattern

variable {p : Pattern}

/-- The number of matches whose civil count is `a` or more and less than `b`. -/
def matchesBetween (p : Pattern) (a b : Nat) : Nat :=
  (List.range' a (b - a)).countP (fun n => p.matchesAt (Civil.ofCount n))

theorem matchesBetween_add {a b c : Nat} (hab : a ≤ b) (hbc : b ≤ c) :
    p.matchesBetween a c = p.matchesBetween a b + p.matchesBetween b c := by
  obtain ⟨m, rfl⟩ := Nat.exists_eq_add_of_le hab
  obtain ⟨n, rfl⟩ := Nat.exists_eq_add_of_le hbc
  have hlen : a + m + n - a = m + n := by omega
  simp only [matchesBetween, hlen, Nat.add_sub_cancel_left, ← List.range'_append_1, List.countP_append]

theorem matchesBetween_of_isMatch {c : Civil} {b : Nat} (hc : p.IsMatch c) (hb : c.count < b) :
    p.matchesBetween c.count b = p.matchesBetween (c.count + 1) b + 1 := by
  have hself : p.matchesBetween c.count (c.count + 1) = 1 := by
    simp [matchesBetween, Civil.ofCount_count hc.1, hc.2]
  rw [matchesBetween_add (Nat.le_succ _) hb, hself, Nat.add_comm]

theorem matchesBetween_eq_zero {a b : Nat} (hb : b ≤ calendarEndCount)
    (h : ∀ c : Civil, p.IsMatch c → a ≤ c.count → b ≤ c.count) : p.matchesBetween a b = 0 := by
  refine List.countP_eq_zero.2 fun n hn hmatch => ?_
  obtain ⟨hge, hlt⟩ := List.mem_range'_1.1 hn
  obtain ⟨hwf, hcount⟩ := Civil.ofCount_spec (n := n) (by omega)
  have := h _ ⟨hwf, hmatch⟩ (by omega)
  omega

/-- The matches after `m` are counted one search strictly after another. -/
theorem passedAfter_eq {m new : Civil} (hp : p.micro ≤ 999999) (hm : m.wellFormed = true)
    (hnew : new.count ≤ calendarEndCount) (fuel : Nat) :
    p.passedAfter new fuel m = min fuel (p.matchesBetween (m.count + 1) new.count) := by
  induction fuel generalizing m with
  | zero => rw [passedAfter, Nat.zero_min]
  | succ fuel ih =>
    have hsearch := strictlyAfter_isFirst hp hm
    rw [passedAfter]
    cases hfound : p.strictlyAfter m with
    | none =>
      have hzero := matchesBetween_eq_zero (p := p) (a := m.count + 1) hnew fun c hc hlt =>
        absurd ⟨hc, hlt⟩ (hsearch.2 hfound c)
      rw [hzero, Nat.min_zero]
    | some m' =>
      obtain ⟨⟨hmatch, hlt⟩, hleast⟩ := hsearch.1 m' hfound
      dsimp only
      split
      · next hbefore =>
        have hgap : p.matchesBetween (m.count + 1) m'.count = 0 :=
          matchesBetween_eq_zero (by omega) fun c hc hafter => hleast c ⟨hc, hafter⟩
        rw [ih hmatch.1, matchesBetween_add hlt hbefore.le, hgap, Nat.zero_add,
          matchesBetween_of_isMatch hmatch hbefore, Nat.add_min_add_right]
      · next hpast =>
        have hnone : p.matchesBetween (m.count + 1) new.count = 0 :=
          matchesBetween_eq_zero hnew fun c hc hafter => (Nat.le_of_not_lt hpast).trans (hleast c ⟨hc, hafter⟩)
        rw [hnone, Nat.min_zero]

theorem passedMatches_eq {m new : Civil} (hp : p.micro ≤ 999999) (hm : p.IsMatch m) (hnew : new.wellFormed = true)
    (hlt : m.count < new.count) : p.passedMatches m new = min 255 (p.matchesBetween m.count new.count) := by
  have hend := (Civil.wellFormed_iff_count_lt ((Civil.wellFormed_iff new).1 hnew).1).1 hnew
  rw [passedMatches, passedAfter_eq hp hm.1 hend.le, matchesBetween_of_isMatch hm hlt, ← Nat.add_min_add_right]

end Pattern

/-! ### An entry placed at the match found (R94, R95) -/

/-- R103, R104: the skips that a forward step adds to a PATTERN entry. -/
theorem Entry.addSkips_pattern {e : Entry} {pat : Pattern} {next : Option Civil} {policy : SkipPolicy} {skips : Nat}
    (h : e.timing = .pattern pat next policy skips) (n : Nat) :
    e.addSkips n = { e with timing := .pattern pat next policy (min 255 (skips + n)) } := by
  simp only [Entry.addSkips, h, Timing.withSkips, Timing.skips, saturate]

/-- `t` is `u` with the entry armed at the match found; with none found it ended with CALENDAR_END, its record naming the
entry as it stood in `s`. -/
structure PlacedAt (s u t : State) (id : EntryId) (stood e : Entry) (found : Option Civil) : Prop where
  armed : ∀ m : Civil, found = some m → t = u.armCivil id e m
  ended : found = none → t = (u.offer stood.owner (endedRecord s id stood .calendarEnd)).freeEntry id

section Placed

variable {s : State} {id : EntryId} {e : Entry} (he : (s.slot id).entry = some e)
include he

theorem State.placeAt_placedAt (placed : Entry) (found : Option Civil) :
    PlacedAt s s (s.placeAt id placed found) id e placed found where
  armed m h := by rw [h, State.placeAt]
  ended h := by rw [h, State.placeAt, State.endEntry_of_entry _ he]

/-- The firing before it leaves the slot and the clock, so that the record names the entry as it stood. -/
theorem State.fire_placeAt_placedAt {fired : Entry} {intended : Intended} {late ends : Bool} (placed : Entry)
    (found : Option Civil) :
    PlacedAt s (s.fire id fired intended late ends).state
      ((s.fire id fired intended late ends).state.placeAt id placed found) id e placed found := by
  have hstands : ((s.fire id fired intended late ends).state.slot id).entry = some e := by rw [State.fire_slot, he]
  have hrecord : endedRecord (s.fire id fired intended late ends).state id e .calendarEnd =
      endedRecord s id e .calendarEnd := by
    simp only [endedRecord, State.fire_slot, State.fire_runTime]
  obtain ⟨harmed, hended⟩ := State.placeAt_placedAt hstands placed found
  exact ⟨harmed, fun h => hrecord ▸ hended h⟩

end Placed

/-! ### The operations on one PATTERN entry -/

section PatternEntry

variable {s : State} {pos : CivilPos} {e : Entry} {pat : Pattern} {next : Option Civil} {skips : Nat}
  (he : (s.slot pos.id).entry = some e)
include he

theorem State.fireCivil_pattern {policy : SkipPolicy} (ht : e.timing = .pattern pat next policy skips) {f : Fired}
    (hf : f = s.fire pos.id e (.civil pos.next) false false) :
    s.fireCivil pos =
      if f.final then f.state.freeEntry pos.id
      else f.state.placeAt pos.id f.entry (pat.strictlyAfter pos.next) := by
  subst hf
  simp only [State.fireCivil, he, ht]

theorem State.placeBack_pattern {policy : SkipPolicy} (ht : e.timing = .pattern pat next policy skips) (new : Civil) :
    s.placeBack new pos = s.placeAt pos.id e (pat.atOrAfter new) := by
  simp only [State.placeBack, he, ht]

theorem State.passOver_skip (ht : e.timing = .pattern pat next .skip skips) (new : Civil) :
    s.passOver new pos =
      s.placeAt pos.id (e.addSkips (pat.passedMatches pos.next new)) (pat.atOrAfter new) := by
  simp only [State.passOver, he, ht]

theorem State.passOver_catchUp (ht : e.timing = .pattern pat next .catchUp skips) (new : Civil) {f : Fired}
    (hf : f = s.fire pos.id (e.addSkips (pat.passedMatches pos.next new - 1)) (.civil pos.next) true false) :
    s.passOver new pos =
      if f.final then f.state.freeEntry pos.id else f.state.placeAt pos.id f.entry (pat.atOrAfter new) := by
  subst hf
  simp only [State.passOver, he, ht]

end PatternEntry

section Wake

variable {s : State} {id : EntryId} (now : Civil)

theorem State.wake_dormant {e : Entry} {pat : Pattern} {next : Option Civil} {policy : SkipPolicy} {skips : Nat}
    (he : (s.slot id).entry = some e) (hd : e.state = .dormant) (ht : e.timing = .pattern pat next policy skips) :
    s.wake now id = s.placeAt id e (pat.atOrAfter now) := by
  simp only [State.wake, he, hd, ht]

theorem State.wake_other
    (h : ∀ e : Entry, (s.slot id).entry = some e →
      e.state ≠ .dormant ∨ ∀ pat next policy skips, e.timing ≠ .pattern pat next policy skips) :
    s.wake now id = s := by
  unfold State.wake
  split
  · rfl
  · next e he =>
    split
    · next hd ht => exact ((h e he).elim (fun hs => hs hd) fun hk => hk _ _ _ _ ht).elim
    · rfl

end Wake

/-! ### The head of the CIVIL due list (R98, R99) -/

theorem execCivilFiring_notDue {s : State} {c : Civil} {pos : CivilPos} {rest : List CivilPos} (hr : s.rstN = true)
    (hc : s.civil = some c) (hl : s.civils = pos :: rest) (h : c.count < pos.next.count) :
    exec .civilFiring s = .next s := by
  rw [execCivilFiring_released hr, hc, hl]
  exact congrArg _ (if_neg (Nat.not_le.2 h))

theorem execCivilFiring_due {s : State} {c : Civil} {pos : CivilPos} {rest : List CivilPos} (hr : s.rstN = true)
    (hc : s.civil = some c) (hl : s.civils = pos :: rest) (h : pos.next.count ≤ c.count) :
    exec .civilFiring s = .next ((s.setReached { s.reached with civil := false }).fireCivil pos) := by
  rw [execCivilFiring_released hr, hc, hl]
  exact congrArg _ (if_pos h)

/-- Settles O35: the list's head is not due, or it fires and is placed at its first match strictly after. -/
theorem civilFiring : Obligations.CivilFiring := by
  intro s c pos rest hr hc hl u
  refine ⟨execCivilFiring_notDue hr hc hl, fun e pat next policy skips hdue he ht => ?_⟩
  have hu : (u.slot pos.id).entry = some e := he
  have hexec : exec .civilFiring s = .next (u.fireCivil pos) := execCivilFiring_due hr hc hl hdue
  rw [State.fireCivil_pattern hu ht rfl] at hexec
  have hplaced := State.fire_placeAt_placedAt hu (fired := e) (intended := .civil pos.next) (late := false)
    (ends := false) (u.fire pos.id e (.civil pos.next) false false).entry (pat.strictlyAfter pos.next)
  refine ⟨fun hf => hexec.trans (congrArg _ (if_pos hf)), fun m hf hm => ?_, fun hf hm => ?_⟩
  · rw [if_neg (Bool.eq_false_iff.1 hf)] at hexec
    exact hexec.trans (congrArg _ (hplaced.armed m hm))
  · rw [if_neg (Bool.eq_false_iff.1 hf)] at hexec
    exact hexec.trans (congrArg _ (hplaced.ended hm))

/-! ### Steps and the first set of civil time (R100, R102 to R105) -/

theorem State.stepPatterns_cases (s : State) (old new : Civil) :
    (old.count < new.count →
      s.stepPatterns old new =
        (s.civils.filter (fun x => x.next.count < new.count)).foldl (fun t x => t.passOver new x) s) ∧
    (new.count < old.count → s.stepPatterns old new = s.civils.foldl (fun t x => t.placeBack new x) s) ∧
    (old.count = new.count → s.stepPatterns old new = s) :=
  ⟨fun h => if_pos h, fun h => (if_neg h.not_gt).trans (if_pos h),
    fun h => (if_neg h.not_lt).trans (if_neg h.not_gt)⟩

/-- Settles O37: a step and a set take the entries one by one, and each entry taken is placed at the match found
(`PlacedAt`); the count of matches passed is `Pattern.passedMatches_eq`. -/
theorem stepsReachPatternEntries : Obligations.StepsReachPatternEntries := by
  refine ⟨State.stepPatterns_cases, ?_, ?_, fun s now => ⟨rfl, fun id => ⟨?_, State.wake_other now⟩⟩⟩
  · intro s new pos e pat next policy skips he ht placed count skipped caught f
    refine ⟨?_, ?_, ?_⟩
    · rw [State.placeBack_pattern he ht]
      obtain ⟨harmed, hended⟩ := State.placeAt_placedAt he e (pat.atOrAfter new)
      exact ⟨harmed, hended⟩
    · rintro rfl
      rw [State.passOver_skip he ht, Entry.addSkips_pattern ht]
      obtain ⟨harmed, hended⟩ := State.placeAt_placedAt he skipped (pat.atOrAfter new)
      exact ⟨harmed, hended⟩
    · rintro rfl
      rw [State.passOver_catchUp he ht new rfl, Entry.addSkips_pattern ht]
      refine ⟨fun hf => if_pos hf, fun hf => ?_⟩
      rw [if_neg (Bool.eq_false_iff.1 hf)]
      obtain ⟨harmed, hended⟩ := State.fire_placeAt_placedAt he (fired := caught) (intended := .civil pos.next)
        (late := true) (ends := false) f.entry (pat.atOrAfter new)
      exact ⟨harmed, hended⟩
  · intro pat m new hp hm hmatch hnew hlt
    exact Pattern.passedMatches_eq (Pattern.micro_le_of_inRange hp) ⟨hm, hmatch⟩ hnew hlt
  · intro e pat next policy skips he hd ht
    rw [State.wake_dormant now he hd ht]
    obtain ⟨harmed, hended⟩ := State.placeAt_placedAt he e (pat.atOrAfter now)
    exact ⟨harmed, hended⟩

end Sys2Proof.Machine
end

section
/-! SUPPORT. The requests and the event of Line Control: their operands read back, what a claim and a drive come to by
the owner of the line, and the end of a pulse (R112 to R115, R118 to R120).
-/

namespace Sys2Proof.Machine

/-! ### Operands (R113) -/

theorem decodeLine_of_val {b : Byte} {l : Line} (h : b.toNat = l.val) : decodeLine b = some l := by
  simp [decodeLine, h]

theorem decodeLine_outside {b : Byte} (h : 8 ≤ b.toNat) : decodeLine b = none :=
  dif_neg (Nat.not_lt.2 h)

theorem decodeLevel_levelCode (v : Level) : decodeLevel (levelCode v) = some v := by
  cases v <;> rfl

theorem decodeLevel_outside {b : Byte} (h : 1 < b.toNat) : decodeLevel b = none := by
  revert b
  decide

theorem decodeAction_outside {b : Byte} {width : Nat}
    (h : 3 < b.toNat ∨ (b = 3 ∧ (width = 0 ∨ 1000000 < width))) : decodeAction b width = none := by
  rcases h with h | ⟨rfl, hw⟩
  · have hne : ∀ n : Byte, n.toNat ≤ 3 → b ≠ n := by
      rintro n hn rfl
      omega
    rw [decodeAction, if_neg (hne 0 (by decide)), if_neg (hne 1 (by decide)), if_neg (hne 2 (by decide)),
      if_neg (hne 3 (by decide))]
  · have hrange : ¬(1 ≤ width ∧ width ≤ 1000000) := by omega
    exact if_neg hrange

theorem decodeAction_inside {b : Byte} {width : Nat} {a : Action}
    (h : (b = 0 ∧ a = .toActive) ∨ (b = 1 ∧ a = .toIdle) ∨ (b = 2 ∧ a = .toggle) ∨
      (b = 3 ∧ a = .pulse width ∧ 1 ≤ width ∧ width ≤ 1000000)) : decodeAction b width = some a := by
  rcases h with ⟨rfl, rfl⟩ | ⟨rfl, rfl⟩ | ⟨rfl, rfl⟩ | ⟨rfl, rfl, hw⟩
  · rfl
  · rfl
  · rfl
  · exact if_pos hw

section
variable {lineByte actionByte : Byte} {width : Nat} (hw : width < 4294967296)
include hw

/-- The three fields that DRIVE_LINE sends. -/
theorem decodeLineAction_fields :
    decodeLineAction (lineByte :: actionByte :: toBytes 4 width) 0 =
      (decodeLine lineByte).bind fun l => (decodeAction actionByte width).map fun a => { line := l, action := a } := by
  have hwidth : fieldAt (lineByte :: actionByte :: toBytes 4 width) 2 4 = width := by
    simpa using fieldAt_after [lineByte, actionByte] [] 4 width hw
  simp only [decodeLineAction, Nat.zero_add, hwidth, byteAt_cons, byteAt_zero]
  cases decodeLine lineByte <;> cases decodeAction actionByte width <;> rfl

theorem decodeLineAction_outside (h : 8 ≤ lineByte.toNat ∨ 3 < actionByte.toNat ∨
      (actionByte = 3 ∧ (width = 0 ∨ 1000000 < width))) :
    decodeLineAction (lineByte :: actionByte :: toBytes 4 width) 0 = none := by
  rw [decodeLineAction_fields hw]
  rcases h with h | h
  · rw [decodeLine_outside h]
    rfl
  · rw [decodeAction_outside h]
    exact Option.bind_fun_none _

theorem decodeLineAction_inside {l : Line} {a : Action} (hl : lineByte.toNat = l.val)
    (ha : decodeAction actionByte width = some a) :
    decodeLineAction (lineByte :: actionByte :: toBytes 4 width) 0 = some { line := l, action := a } := by
  rw [decodeLineAction_fields hw, decodeLine_of_val hl, ha]
  rfl

end

/-! ### CLAIM_LINE, RELEASE_LINE and DRIVE_LINE (R114, R115, R120) -/

section
variable {s : State} {p : Port} {l : Line} {c : LineClaim}

/-- A free line, and a line of the requester, is granted with the pending pulse end dropped. -/
theorem State.claimLine_granted (idle : Level)
    (h : (s.line l).claim = none ∨ ∃ c : LineClaim, (s.line l).claim = some c ∧ c.owner = p) :
    s.claimLine p l idle =
      (s.setLine l { claim := some { owner := p, idle := idle }, level := idle, pulse := none }, Reply.plain .ok) := by
  rcases h with h | ⟨c, h, ho⟩
  · simp only [State.claimLine, h]
  · simp only [State.claimLine, h, if_pos ho]

theorem State.claimLine_held (idle : Level) (h : (s.line l).claim = some c) (ho : c.owner ≠ p) :
    s.claimLine p l idle = (s, { status := .held, results := [BitVec.ofNat 8 c.owner.val], resets := false }) := by
  simp only [State.claimLine, h, if_neg ho, portByte]

theorem State.driveLine_notOwner {a : LineAction} (h : s.ownsLine p a.line = false) :
    s.driveLine p a = refuse s .notOwner :=
  if_neg (Bool.eq_false_iff.1 h)

/-- The overtaken source that a drive answers is that of the pulse end the line held. -/
theorem State.driveLine_owner {a : LineAction} (h : s.ownsLine p a.line = true) :
    s.driveLine p a =
      ((s.askLine (some a) p .direct).1,
       Reply.okWith (levelCode ((s.askLine (some a) p .direct).1.line a.line).level ::
         sourceBytes ((s.line a.line).pulse.map (fun x => x.source)))) := by
  obtain ⟨c, hc, rfl⟩ := (s.ownsLine_iff _ _).1 h
  simp only [State.driveLine, if_pos h, State.askLine_owner .direct hc]

end

/-- Settles O38: each request's operands are read back, and the request is then refused, granted or applied by the owner
of the line. -/
theorem lineRequests : Obligations.LineRequests := by
  refine ⟨?_, ?_, ?_⟩
  · intro s p tag lineByte idleByte h t
    have hexec := execClaimLine_released p h.1
    rw [State.serve_withLength h (n := 2) rfl, byteAt_zero, byteAt_cons, byteAt_zero] at hexec
    refine ⟨fun hout => ?_, ?_⟩
    · rcases hout with hout | hout
      · rw [decodeLine_outside hout] at hexec
        exact hexec
      · rw [decodeLevel_outside hout] at hexec
        cases hline : decodeLine lineByte <;> rw [hline] at hexec <;> exact hexec
    · intro l idle hl hidle granted
      have hclaim : exec (.claimLine p) s = .next
          ((t.claimLine p l idle).1.respond p tag 0x20 (t.claimLine p l idle).2) := by
        rw [decodeLine_of_val hl, hidle, decodeLevel_levelCode] at hexec
        exact hexec
      have grant := State.claimLine_granted (s := t) (p := p) (l := l) idle
      refine ⟨fun hc => ?_, fun c hc ho => ?_, fun c hc ho => ?_⟩
      · exact hclaim.trans (by rw [grant (Or.inl hc)])
      · exact hclaim.trans (by rw [grant (Or.inr ⟨c, hc, ho⟩)])
      · exact hclaim.trans (by rw [State.claimLine_held (s := t) idle hc ho])
  · intro s p tag lineByte h t
    have hexec := execReleaseLine_released p h.1
    rw [State.serve_withLength h (n := 1) rfl, byteAt_zero] at hexec
    refine ⟨fun hout => ?_, fun l hl => ⟨fun ho => ?_, fun ho => ?_⟩⟩
    · rw [decodeLine_outside hout] at hexec
      exact hexec
    · simp only [decodeLine_of_val hl, State.takeRequest_ownsLine, ho] at hexec
      exact hexec
    · simp only [decodeLine_of_val hl, State.takeRequest_ownsLine, ho] at hexec
      exact hexec
  · intro s p tag lineByte actionByte width hw h t
    have hexec := execDriveLine_released p h.1
    rw [State.serve_withLength h (n := 6) (by simp)] at hexec
    refine ⟨fun hout => ?_, fun l a hl ha => ?_⟩
    · rw [decodeLineAction_outside hw hout] at hexec
      exact hexec
    · have hdrive : exec (.driveLine p) s = .next ((t.driveLine p { line := l, action := a }).1.respond p tag 0x22
          (t.driveLine p { line := l, action := a }).2) := by
        rw [decodeLineAction_inside hw hl (decodeAction_inside ha)] at hexec
        exact hexec
      refine ⟨fun ho => ?_, ?_⟩
      · have hrefused := State.driveLine_notOwner (s := t) (a := { line := l, action := a }) ho
        rw [hdrive, hrefused]
        rfl
      · intro ho asked
        have hasked := State.driveLine_owner (s := t) (a := { line := l, action := a }) ho
        rw [hdrive, hasked]
        rfl

/-! ### The end of a pulse (R118, R119) -/

/-- Settles O39: the pending end has come, has not come, or is not there. -/
theorem pulseEndEvent : Obligations.PulseEndEvent := by
  intro s l c hr hc
  have hexec := execPulseEnd_released l hr
  rw [hc] at hexec
  refine ⟨fun x hx hend => ?_, fun x hx hend => ?_, fun hx => ?_⟩
  · rw [hx] at hexec
    exact hexec.trans (congrArg _ (if_pos hend))
  · rw [hx] at hexec
    exact hexec.trans (congrArg _ (if_neg (Nat.not_le.2 hend)))
  · rw [hx] at hexec
    exact hexec

end Sys2Proof.Machine
end

section
/-! SUPPORT. The pins: what keeps a line and an input as their chapters say, the operations that leave every pin as it
is, and those that drive, claim or release one (R111, R112, R118, R129, R130).
-/

namespace Sys2Proof.Machine

/-! ### One line, one input -/

theorem LineState.reset_ok : LineState.reset.ok := ⟨rfl, rfl⟩

/-- An owned line without a pending pulse end drives any level. -/
theorem LineState.ok_of_noPulse (c : LineClaim) (v : Level) :
    LineState.ok { claim := some c, level := v, pulse := none } := fun h => nomatch h

/-- R117: of the four actions only PULSE leaves a pending end, and it drives the active level. -/
theorem LineState.apply_ok {l : LineState} {c : LineClaim} (hc : l.claim = some c) (a : Action) (now : Nat)
    (src : Source) : (l.apply c a now src).1.ok := by
  obtain ⟨_, level, pulse⟩ := l
  subst hc
  cases a with
  | toActive | toIdle | toggle => exact LineState.ok_of_noPulse c _
  | pulse w => exact fun _ => rfl

theorem InputState.ok_of_unclaimed (seen : Option Level) : InputState.ok { claim := none, seen := seen } :=
  fun _ h => nomatch h

theorem InputState.ok_claimed_iff {c : InputClaim} {seen : Option Level} :
    InputState.ok { claim := some c, seen := seen } ↔ c.holdoff ≤ 65535 ∧ c.suppressed ≤ 65535 := by
  simp [InputState.ok]

/-- R138: the count of suppressed edges starts anew, the holdoff stays. -/
theorem InputClaim.afterEdge_ok {c : InputClaim} {i : InputState} (hi : i.ok) (hc : i.claim = some c) (now : Nat)
    (seen : Option Level) : InputState.ok { claim := some (c.afterEdge now), seen := seen } :=
  InputState.ok_claimed_iff.2 ⟨(hi c hc).1, Nat.zero_le _⟩

/-! ### The relation of a state to the next -/

/-- Every line and every input stays as its chapter says, and a pin's level once seen stays seen. -/
structure PinsKept (s t : State) : Prop where
  line  : ∀ l : Line, (s.line l).ok → (t.line l).ok
  input : ∀ i : Input, (s.input i).ok → (t.input i).ok
  seen  : ∀ i : Input, (s.input i).seen ≠ none → (t.input i).seen ≠ none

theorem PinsKept.refl (s : State) : PinsKept s s := ⟨fun _ => id, fun _ => id, fun _ => id⟩

theorem PinsKept.trans {s t u : State} (h : PinsKept s t) (k : PinsKept t u) : PinsKept s u where
  line := fun l => k.line l ∘ h.line l
  input := fun i => k.input i ∘ h.input i
  seen := fun i => k.seen i ∘ h.seen i

theorem PinsKept.pinsOk {s t : State} (h : PinsKept s t) (hr : s.rstN = true) (hs : PinsOk s) : PinsOk t := by
  obtain ⟨hline, hinput, hseen⟩ := hs
  exact ⟨fun l => h.line l (hline l), fun i => h.input i (hinput i), fun _ i => h.seen i (hseen hr i)⟩

/-- The lines and the inputs. -/
def State.pins (s : State) : Vector LineState 8 × Vector InputState 4 := (s.lines, s.inputs)

theorem State.pins_eq {s t : State} (hl : t.lines = s.lines) (hi : t.inputs = s.inputs) : t.pins = s.pins :=
  Prod.ext hl hi

theorem PinsKept.of_pins {s t : State} (h : t.pins = s.pins) : PinsKept s t := by
  obtain ⟨hl, hi⟩ := Prod.ext_iff.1 h
  have hline : ∀ l : Line, t.line l = s.line l := fun l => congrArg (·[l]) hl
  have hinput : ∀ i : Input, t.input i = s.input i := fun i => congrArg (·[i]) hi
  exact ⟨fun l h => hline l ▸ h, fun i h => hinput i ▸ h, fun i h => hinput i ▸ h⟩

theorem PinsKept.setLine (s : State) (l : Line) {x : LineState} (hx : x.ok) : PinsKept s (s.setLine l x) where
  line := fun k h => by
    rw [State.line_setLine]
    split
    · exact hx
    · exact h
  input := fun _ => id
  seen := fun _ => id

theorem PinsKept.setInput (s : State) (i : Input) {x : InputState} (hx : (s.input i).ok → x.ok)
    (hseen : (s.input i).seen ≠ none → x.seen ≠ none) : PinsKept s (s.setInput i x) where
  line := fun _ => id
  input := fun k h => by
    rw [State.input_setInput]
    split
    · next hk => exact hx (hk ▸ h)
    · exact h
  seen := fun k h => by
    rw [State.input_setInput]
    split
    · next hk => exact hseen (hk ▸ h)
    · exact h

theorem PinsKept.setClaim (s : State) (i : Input) {c : Option InputClaim}
    (hc : (s.input i).ok → InputState.ok { claim := c, seen := (s.input i).seen }) : PinsKept s (s.setClaim i c) :=
  .setInput s i hc id

/-- The level seen on a pin is no part of its claim. -/
theorem PinsKept.see (s : State) (i : Input) (v : Level) : PinsKept s (s.setInput i { s.input i with seen := some v }) :=
  .setInput s i id fun _ h => nomatch h

theorem PinsKept.foldl {α : Type} {f : State → α → State} (h : ∀ s a, PinsKept s (f s a)) (xs : List α) (s : State) :
    PinsKept s (xs.foldl f s) := by
  induction xs generalizing s with
  | nil => exact .refl s
  | cons x xs ih => exact (h s x).trans (ih (f s x))

/-! ### The operations that leave the pins -/

theorem State.pins_offerEach (s : State) (f : Port → List Record) : (s.offerEach f).pins = s.pins :=
  State.pins_eq (s.offerEach_lines f) (s.offerEach_inputs f)

theorem PinsKept.offerEach (s : State) (f : Port → List Record) : PinsKept s (s.offerEach f) :=
  .of_pins (s.pins_offerEach f)

theorem PinsKept.setCivilTime (s : State) (c : Option Civil) (w : Option Slew) (x : Option PendingStep) :
    PinsKept s (s.setCivilTime c w x) := .of_pins rfl

theorem State.pins_freeEntry (s : State) (id : EntryId) : (s.freeEntry id).pins = s.pins :=
  State.pins_eq (s.freeEntry_lines id) (s.freeEntry_inputs id)

theorem State.pins_armMono (s : State) (id : EntryId) (e : Entry) (due : Nat) (late : Bool) :
    (s.armMono id e due late).pins = s.pins := rfl

theorem State.pins_park (s : State) (id : EntryId) (e : Entry) (st : EntryState) : (s.park id e st).pins = s.pins := rfl

theorem State.pins_endEntry (s : State) (id : EntryId) (r : EndReason) : (s.endEntry id r).pins = s.pins := by
  unfold State.endEntry
  split
  · rfl
  · exact State.pins_freeEntry _ id

theorem State.pins_placeAt (s : State) (id : EntryId) (e : Entry) (found : Option Civil) :
    (s.placeAt id e found).pins = s.pins := by
  unfold State.placeAt
  split
  · rfl
  · exact s.pins_endEntry id _

theorem State.pins_enter (s : State) (id : EntryId) (e : Entry) : (s.enter id e).pins = s.pins := by
  unfold State.enter
  split
  · rfl
  · rfl
  · split
    · exact s.pins_placeAt id e _
    · rfl
  · rfl

theorem State.pins_create (s : State) (p : Port) (a : CreateArgs) : (s.create p a).1.pins = s.pins := by
  unfold State.create
  split
  · rfl
  · rfl
  · exact State.pins_enter _ _ _

theorem State.pins_resume (s : State) (id : EntryId) (e : Entry) : (s.resume id e).1.pins = s.pins := by
  unfold State.resume
  split
  · rfl
  · rfl
  · split
    · exact s.pins_placeAt id e _
    · rfl
  · split <;> rfl

theorem State.pins_placeBack (s : State) (new : Civil) (pos : CivilPos) : (s.placeBack new pos).pins = s.pins := by
  unfold State.placeBack
  split
  · rfl
  · split
    · exact s.pins_placeAt _ _ _
    · rfl
    · rfl
    · rfl

theorem State.pins_wake (s : State) (now : Civil) (id : EntryId) : (s.wake now id).pins = s.pins := by
  unfold State.wake
  split
  · rfl
  · split
    · exact s.pins_placeAt id _ _
    · rfl

theorem State.pins_wakePatterns (s : State) (now : Civil) : (s.wakePatterns now).pins = s.pins :=
  State.foldl_field (fun t i => t.wake now i) State.pins (fun t i => t.pins_wake now i) allIds s

theorem State.pins_sleep (s : State) (id : EntryId) : (s.sleep id).pins = s.pins := by
  unfold State.sleep
  split
  · rfl
  · split <;> rfl

theorem State.pins_setLists (s : State) (m : List MonoPos) (c : List CivilPos) : (s.setLists m c).pins = s.pins := rfl

theorem State.pins_sleepPatterns (s : State) : s.sleepPatterns.pins = s.pins :=
  (State.pins_setLists _ _ _).trans (State.foldl_field State.sleep State.pins State.pins_sleep allIds s)

theorem State.pins_invalidate (s : State) (cause : ChangeCause) (p : Option Port) :
    (s.invalidate cause p).pins = s.pins :=
  (State.pins_offerEach _ _).trans (State.pins_sleepPatterns _)

theorem State.pins_advanceTime (s : State) : s.advanceTime.pins = s.pins := by
  have htick : s.tick.pins = s.pins := by
    rw [State.tick_eq]
    rfl
  refine Eq.trans ?_ htick
  cases hc : s.civil with
  | none => rw [State.advanceTime_unset hc]
  | some c =>
    by_cases hy : (c.advance (advanceAmount s.slew)).year ≤ 2199
    · rw [State.advanceTime_valid hc hy]
      dsimp only
      split
      · exact State.pins_offerEach _ _
      · rfl
    · rw [State.advanceTime_end hc (by omega)]
      exact s.tick.pins_invalidate _ _

theorem State.pins_claimAuthority (s : State) (p : Port) (ms : Nat) : (s.claimAuthority p ms).1.pins = s.pins := by
  unfold State.claimAuthority
  dsimp only
  split
  · rfl
  · split <;> rfl

theorem State.pins_endAuthority (s : State) (q : Option Port) : (s.endAuthority q).pins = s.pins :=
  State.pins_offerEach _ _

theorem State.pins_cancelStep (s : State) : s.cancelStep.pins = s.pins :=
  State.pins_offerEach _ _

theorem State.pins_slewCivil (s : State) (p : Port) (offset : Int) (rate : Nat) :
    (s.slewCivil p offset rate).1.pins = s.pins := by
  unfold State.slewCivil
  split
  · split <;> rfl
  · rfl

/-- A change that is made only under a condition. -/
theorem State.pins_ite {s t : State} (h : t.pins = s.pins) (c : Prop) [Decidable c] :
    (if c then t else s).pins = s.pins := by
  split
  · exact h
  · rfl

/-! ### Firings: a line action reaches a line of the entry's owner (R71, R117) -/

theorem State.askLine_pinsKept (s : State) (a : Option LineAction) (p : Port) (src : Source) :
    PinsKept s (s.askLine a p src).1 := by
  cases a with
  | none => exact .refl s
  | some a =>
    cases h : s.ownsLine p a.line with
    | false =>
      rw [State.askLine_notOwner src h]
      exact .refl s
    | true =>
      obtain ⟨c, hc, rfl⟩ := (s.ownsLine_iff _ _).1 h
      rw [State.askLine_owner src hc]
      exact .setLine s a.line (LineState.apply_ok hc _ _ _)

theorem State.fire_pinsKept (s : State) (id : EntryId) (e : Entry) (intended : Intended) (late ends : Bool) :
    PinsKept s (s.fire id e intended late ends).state := by
  have hasked : PinsKept s (s.askFiring id e).1 :=
    PinsKept.trans (t := s.unlist id) (.of_pins rfl)
      ((s.unlist id).askLine_pinsKept e.action e.owner (.entry (s.handleOf id)))
  by_cases h : firedOffered e.notify (s.firingResult id e late) (ends || lastFiring e.remaining) = true
  · rw [State.fire_offered h]
    exact hasked.trans (.of_pins rfl)
  · rw [State.fire_notOffered h]
    exact hasked

/-- A FINAL firing frees its entry; what else becomes of the entry is the kind's to say. -/
theorem Fired.pins_left (f : Fired) (id : EntryId) {t : State} (h : t.pins = f.state.pins) :
    (if f.final then f.state.freeEntry id else t).pins = f.state.pins := by
  split
  · exact State.pins_freeEntry _ _
  · exact h

theorem State.fireMono_pinsKept (s : State) (pos : MonoPos) : PinsKept s (s.fireMono pos) := by
  unfold State.fireMono
  split
  · exact .of_pins rfl
  · split
    · exact (s.fire_pinsKept _ _ _ _ _).trans (.of_pins (State.pins_freeEntry _ _))
    · exact (s.fire_pinsKept _ _ _ _ _).trans (.of_pins (Fired.pins_left _ _ (State.pins_armMono _ _ _ _ _)))
    · exact .of_pins rfl
    · refine (s.fire_pinsKept _ _ _ _ _).trans (.of_pins (Fired.pins_left _ _ ?_))
      split
      · exact State.pins_park _ _ _ _
      · exact State.pins_endEntry _ _ _

theorem State.fireCivil_pinsKept (s : State) (pos : CivilPos) : PinsKept s (s.fireCivil pos) := by
  unfold State.fireCivil
  split
  · exact .of_pins rfl
  · split
    · exact (s.fire_pinsKept _ _ _ _ _).trans (.of_pins (Fired.pins_left _ _ (State.pins_placeAt _ _ _ _)))
    · exact .of_pins rfl
    · exact .of_pins rfl
    · exact .of_pins rfl

theorem State.passOver_pinsKept (s : State) (new : Civil) (pos : CivilPos) : PinsKept s (s.passOver new pos) := by
  unfold State.passOver
  split
  · exact .of_pins rfl
  · split
    · exact (s.fire_pinsKept _ _ _ _ _).trans (.of_pins (Fired.pins_left _ _ (State.pins_placeAt _ _ _ _)))
    · exact .of_pins (s.pins_placeAt _ _ _)
    · exact .of_pins rfl
    · exact .of_pins rfl
    · exact .of_pins rfl

theorem State.stepPatterns_pinsKept (s : State) (old new : Civil) : PinsKept s (s.stepPatterns old new) := by
  unfold State.stepPatterns
  split
  · exact .foldl (fun t pos => t.passOver_pinsKept new pos) _ s
  · split
    · exact .foldl (fun t pos => .of_pins (t.pins_placeBack new pos)) _ s
    · exact .refl s

/-! ### Changes of civil time (R26 to R30) -/

theorem State.moveCivil_pinsKept (s : State) (old new : Civil) (cancelled : Option PendingStep) (reason : ChangeReason)
    (p : Port) (offset : Int) : PinsKept s (s.moveCivil old new cancelled reason p offset) := by
  unfold State.moveCivil
  exact (PinsKept.setCivilTime s (some new) none none).trans ((PinsKept.offerEach _ _).trans
    ((State.stepPatterns_pinsKept _ old new).trans (.offerEach _ _)))

theorem State.setCivil_pinsKept (s : State) (p : Port) (new : Civil) : PinsKept s (s.setCivil p new) := by
  unfold State.setCivil
  split
  · exact .of_pins ((State.pins_offerEach _ _).trans (State.pins_wakePatterns _ _))
  · exact s.moveCivil_pinsKept _ _ _ _ _ _

theorem State.stepCivil_pinsKept (s : State) (p : Port) (offset : Int) (mode : Byte) :
    PinsKept s (s.stepCivil p offset mode).1 := by
  unfold State.stepCivil
  split
  · exact .refl s
  · split
    · exact .refl s
    · exact .refl s
    · split
      · unfold State.stepNow
        split
        · exact s.moveCivil_pinsKept _ _ _ _ _ _
        · exact .refl s
      · unfold State.stepAtSecond
        split
        · exact .of_pins rfl
        · exact .refl s

/-! ### The requests and events of the pins (R114, R120, R132 to R138) -/

theorem State.claimLine_pinsKept (s : State) (p : Port) (l : Line) (idle : Level) :
    PinsKept s (s.claimLine p l idle).1 := by
  have granted : PinsKept s (s.setLine l { claim := some { owner := p, idle := idle }, level := idle, pulse := none }) :=
    .setLine s l (LineState.ok_of_noPulse _ _)
  unfold State.claimLine
  dsimp only
  split
  · exact granted
  · split
    · exact granted
    · exact .refl s

theorem State.driveLine_pinsKept (s : State) (p : Port) (a : LineAction) : PinsKept s (s.driveLine p a).1 := by
  unfold State.driveLine
  split
  · exact s.askLine_pinsKept _ _ _
  · exact .refl s

theorem State.claimInput_pinsKept (s : State) (p : Port) (i : Input) (mode : EdgeMode) {holdoff : Nat}
    (hh : holdoff ≤ 65535) : PinsKept s (s.claimInput p i mode holdoff).1 := by
  unfold State.claimInput
  split
  · exact .setClaim s i fun _ => InputState.ok_claimed_iff.2 ⟨hh, Nat.zero_le _⟩
  · next old hold =>
    split
    · exact .setClaim s i fun hi => InputState.ok_claimed_iff.2 ⟨hh, (hi old hold).2⟩
    · exact .refl s

theorem State.releaseInput_pinsKept (s : State) (p : Port) (i : Input) : PinsKept s (s.releaseInput p i).1 :=
  (PinsKept.foldl (fun t id => .of_pins (t.pins_endEntry id .captureLost)) _ s).trans
    (.setClaim _ i fun _ => InputState.ok_of_unclaimed _)

theorem State.pins_armByEdge (s : State) (id : EntryId) : (s.armByEdge id).pins = s.pins := by
  unfold State.armByEdge
  split
  · rfl
  · split <;> rfl

theorem State.acceptEdge_pinsKept {s : State} {i : Input} {c : InputClaim} (hc : (s.input i).claim = some c)
    (pol : Polarity) : PinsKept s (s.acceptEdge i c pol) := by
  unfold State.acceptEdge
  dsimp only
  generalize Record.capture _ = r
  have harmed : (((s.waitingOn c.owner i).foldl State.armByEdge (s.offer c.owner r))).pins = s.pins :=
    State.foldl_field State.armByEdge State.pins State.pins_armByEdge _ _
  have hinput : ((s.waitingOn c.owner i).foldl State.armByEdge (s.offer c.owner r)).input i = s.input i :=
    congrArg (fun v => v.2[i]) harmed
  exact (PinsKept.of_pins harmed).trans
    (.setClaim _ i fun hi => InputClaim.afterEdge_ok hi (hinput ▸ hc) _ _)

theorem State.takeEdge_pinsKept (s : State) (i : Input) (pol : Polarity) : PinsKept s (s.takeEdge i pol) := by
  unfold State.takeEdge
  split
  · exact .refl s
  · next c hc =>
    split
    · split
      · exact State.acceptEdge_pinsKept hc pol
      · exact .setClaim s i fun hi => InputState.ok_claimed_iff.2 ⟨(hi c hc).1, Nat.min_le_left _ _⟩
    · exact .refl s

/-! ### Port reset (R127, R143) -/

/-- Each pin of the port is released, its level seen kept; every other stays as it is. -/
theorem State.resetPort_pinsKept (s : State) (p : Port) (brk : Bool) : PinsKept s (s.resetPort p brk) where
  line := fun l h => by
    rw [State.line_resetPort]
    split
    · exact LineState.reset_ok
    · exact h
  input := fun i h => by
    rw [State.input_resetPort]
    split
    · exact InputState.ok_of_unclaimed _
    · exact h
  seen := fun i h => by
    rw [State.input_resetPort]
    split <;> exact h

theorem State.ackExpired_pinsKept (s : State) (p : Port) : PinsKept s (s.ackExpired p) := by
  unfold State.ackExpired
  dsimp only
  split
  · split
    · exact .of_pins rfl
    · exact s.resetPort_pinsKept p false
  · exact .of_pins rfl

end Sys2Proof.Machine
end

section
/-! SUPPORT. What every command makes of the pins: most leave them, the rest keep each as its chapter says (R111, R112,
R118, R129, R130).
-/

namespace Sys2Proof.Machine

/-! ### The commands that leave the pins -/

/-- The commands that may change a line or an input: those of the two units, the firings, the changes of civil time that
may fire an entry, those that may take a port reset, and the two of RST_N. -/
def reachesPins : Instr → Bool
  | .claimLine _ | .releaseLine _ | .driveLine _ | .pulseEnd _ => true
  | .claimInput _ | .releaseInput _ | .captureEdge _ _ | .holdoffExpiry _ => true
  | .monoFiring | .civilFiring | .secondBoundary | .setCivil _ | .stepCivil _ => true
  | .responseTransmissionEnd _ | .ackTimeout _ | .breakSeen _ => true
  | .deviceReset | .resetRelease _ _ _ _ _ _ => true
  | _ => false

theorem State.pins_setPort (s : State) (p : Port) (x : PortState) : (s.setPort p x).pins = s.pins := rfl

theorem State.pins_setLink (s : State) (p : Port) (x : Link) : (s.setLink p x).pins = s.pins := rfl

theorem State.pins_takeAdvance (s : State) : s.takeAdvance.pins = s.pins := s.pins_advanceTime

theorem exec_pins {c : Instr} {s t : State} (hc : reachesPins c = false) (hr : s.rstN = true)
    (h : exec c s = .next t) : t.pins = s.pins := by
  have key : ∀ u : State, exec c s = .next u → u.pins = s.pins → t.pins = s.pins := fun u =>
    of_exec_eq (P := fun u => u.pins = s.pins) h
  have blind : LinkBlind (fun s t => t.pins = s.pins) := ⟨fun _ => rfl, fun h k => k.trans h, State.pins_setLink⟩
  have answers : ∀ (f : State → Reply) (args : List Byte) (t : State), (t, f t).1.pins = t.pins := fun _ _ _ => rfl
  cases c with
  | monoFiring | civilFiring | secondBoundary | deviceReset => exact absurd hc (by decide)
  | claimLine | releaseLine | driveLine | pulseEnd | claimInput | releaseInput | captureEdge | holdoffExpiry => cases hc
  | setCivil | stepCivil | responseTransmissionEnd | ackTimeout | breakSeen | resetRelease => cases hc
  | runTimeAdvance => exact key _ (execRunTimeAdvance_released hr) (State.pins_ite s.pins_takeAdvance _)
  | adjustedAdvance => exact key _ (execAdjustedAdvance_released hr) (State.pins_ite s.pins_takeAdvance _)
  | calendarEnd => exact key _ (execCalendarEnd_released hr) (State.pins_ite s.pins_takeAdvance _)
  | readTime p => exact key _ (execReadTime_released p hr) (blind.serve (blind.withLength 0 (answers _)) s p _)
  | listEntries p => exact key _ (execListEntries_released p hr) (blind.serve (blind.withLength 0 (answers _)) s p _)
  | getPortStatus p =>
    exact key _ (execGetPortStatus_released p hr) (blind.serve (blind.withLength 0 (answers _)) s p _)
  | getInfo p => exact key _ (execGetInfo_released p hr) (blind.serve (blind.withLength 0 (answers _)) s p _)
  | portReset p => exact key _ (execPortReset_released p hr) (blind.serve (blind.withLength 0 (answers _)) s p _)
  | queryEntry p => exact key _ (execQueryEntry_released p hr) (blind.serve (blind.withEntry p fun _ _ _ => rfl) s p _)
  | clearFaults p => exact key _ (execClearFaults_released p hr) (blind.serve (blind.withLength 0 fun _ _ => rfl) s p _)
  | claimAuthority p =>
    refine key _ (execClaimAuthority_released p hr) (blind.serve (blind.withLength 4 fun args t => ?_) s p _)
    dsimp only
    split
    · exact t.pins_claimAuthority p _
    · rfl
  | releaseAuthority p =>
    refine key _ (execReleaseAuthority_released p hr) (blind.serve (blind.withLength 0 fun _ t => ?_) s p _)
    split
    · exact t.pins_endAuthority none
    · rfl
  | leaseExpiry =>
    refine key _ (execLeaseExpiry_released hr) ?_
    split
    · rfl
    · exact State.pins_ite (s.pins_endAuthority _) _
  | cancelStep p =>
    refine key _ (execCancelStep_released p hr) (blind.serve (blind.civilChange p 0 fun _ t => ?_) s p _)
    split
    · rfl
    · exact t.pins_cancelStep
  | slewCivil p =>
    exact key _ (execSlewCivil_released p hr)
      (blind.serve (blind.civilChange p 6 fun _ t => t.pins_slewCivil p _ _) s p _)
  | invalidateCivil p =>
    refine key _ (execInvalidateCivil_released p hr) (blind.serve (blind.civilChange p 0 fun _ t => ?_) s p _)
    split
    · rfl
    · exact t.pins_invalidate _ _
  | createEntry p =>
    refine key _ (execCreateEntry_released p hr) (blind.serve (fun args t => ?_) s p _)
    split
    · rfl
    · exact t.pins_create p _
  | cancelEntry p =>
    exact key _ (execCancelEntry_released p hr)
      (blind.serve (blind.withEntry p fun id _ t => t.pins_freeEntry id) s p _)
  | suspendEntry p =>
    refine key _ (execSuspendEntry_released p hr) (blind.serve (blind.withEntry p fun id e t => ?_) s p _)
    split <;> rfl
  | resumeEntry p =>
    refine key _ (execResumeEntry_released p hr) (blind.serve (blind.withEntry p fun id e t => ?_) s p _)
    split
    · exact t.pins_resume id e
    · rfl
  | setPortConfig p =>
    refine key _ (execSetPortConfig_released p hr) (blind.serve (blind.withLength 5 fun args t => ?_) s p _)
    split <;> rfl
  | unknownRequest p =>
    refine key _ (execUnknownRequest_released p hr) ?_
    split
    · rfl
    · rfl
    · rfl
    · split <;> rfl
  | ackFrame p =>
    refine key _ (execAckFrame_released p hr) ?_
    split <;> rfl
  | backoffExpiry p =>
    refine key _ (execBackoffExpiry_released p hr) ?_
    split
    · rfl
    · exact State.pins_ite (s.pins_setPort p _) _
  | characterReceived p b moment =>
    refine key _ (execCharacterReceived_released p b moment hr) ?_
    split <;> rfl
  | frameComplete p b => exact key _ (execFrameComplete_released p b hr) (State.pins_ite (s.pins_setPort p _) _)
  | lengthFault p b => exact key _ (execLengthFault_released p b hr) (State.pins_ite (s.pins_setPort p _) _)
  | gapExpiry p => exact key _ (execGapExpiry_released p hr) (State.pins_ite (s.pins_setLink p _) _)
  | transmitStart p => exact key _ (execTransmitStart_released p hr) (s.pins_setPort p _)
  | noteTransmissionEnd p => exact key _ (execNoteTransmissionEnd_released p hr) (s.pins_setPort p _)
  | receiveLineAtMark p => exact key _ (execReceiveLineAtMark_released p hr) (s.pins_setLink p _)

/-! ### The commands that reach the pins -/

/-- A change that is made only under a condition. -/
theorem PinsKept.ite {s t : State} (h : PinsKept s t) (c : Prop) [Decidable c] : PinsKept s (if c then t else s) := by
  split
  · exact h
  · exact .refl s

theorem exec_reachesPins_pinsKept {c : Instr} {s t : State} (hc : reachesPins c = true) (hd : c ≠ .deviceReset)
    (hr : s.rstN = true) (h : exec c s = .next t) : PinsKept s t := by
  have key : ∀ u : State, exec c s = .next u → PinsKept s u → PinsKept s t := fun u => of_exec_eq h
  have blind : LinkBlind PinsKept := ⟨.refl, .trans, fun s p x => .of_pins (s.pins_setLink p x)⟩
  have reached : ∀ r : Reached, PinsKept s (s.setReached r) := fun _ => .of_pins rfl
  cases c with
  | deviceReset => exact absurd rfl hd
  | resetRelease r1 r0 c0 c1 c2 c3 =>
    refine key _ (exec_resetRelease s r1 r0 c0 c1 c2 c3) ?_
    rw [if_pos hr]
    exact .refl s
  | claimLine p =>
    refine key _ (execClaimLine_released p hr) (blind.serve (blind.withLength 2 fun args t => ?_) s p _)
    split
    · exact t.claimLine_pinsKept p _ _
    · exact .refl t
  | releaseLine p =>
    refine key _ (execReleaseLine_released p hr) (blind.serve (blind.withLength 1 fun args t => ?_) s p _)
    split
    · split
      · exact .setLine t _ LineState.reset_ok
      · exact .refl t
    · exact .refl t
  | driveLine p =>
    refine key _ (execDriveLine_released p hr) (blind.serve (blind.withLength 6 fun args t => ?_) s p _)
    split
    · exact t.driveLine_pinsKept p _
    · exact .refl t
  | pulseEnd l =>
    refine key _ (execPulseEnd_released l hr) ?_
    split
    · exact .ite (.setLine s l (LineState.ok_of_noPulse _ _)) _
    · exact .refl s
  | claimInput p =>
    refine key _ (execClaimInput_released p hr) (blind.serve (blind.withLength 4 fun args t => ?_) s p _)
    split
    · exact t.claimInput_pinsKept p _ _ (Nat.le_of_lt_succ (fieldAt_lt args 2 2))
    · exact .refl t
  | releaseInput p =>
    refine key _ (execReleaseInput_released p hr) (blind.serve (blind.withLength 1 fun args t => ?_) s p _)
    split
    · split
      · exact t.releaseInput_pinsKept p _
      · exact .refl t
    · exact .refl t
  | captureEdge i level =>
    refine key _ (execCaptureEdge_released i level hr) ?_
    split
    · exact .see s i level
    · split
      · exact .refl s
      · exact (PinsKept.see s i level).trans (State.takeEdge_pinsKept _ i _)
  | holdoffExpiry i =>
    refine key _ (execHoldoffExpiry_released i hr) ?_
    split
    · exact .refl s
    · next c hc =>
      have hover : PinsKept s (s.setClaim i (some { c with holdoffEnd := none })) :=
        .setClaim s i fun hi => InputState.ok_claimed_iff.2 (hi c hc)
      split
      · exact .refl s
      · exact .ite hover _
  | monoFiring =>
    refine key _ (execMonoFiring_released hr) ?_
    split
    · exact .refl s
    · exact .ite ((reached _).trans (State.fireMono_pinsKept _ _)) _
  | civilFiring =>
    refine key _ (execCivilFiring_released hr) ?_
    split
    · exact .ite ((reached _).trans (State.fireCivil_pinsKept _ _)) _
    · exact .refl s
  | secondBoundary =>
    refine key _ (execSecondBoundary_released hr) ?_
    split
    · split
      · exact s.moveCivil_pinsKept _ _ _ _ _ _
      · exact .refl s
    · exact .refl s
  | setCivil p =>
    refine key _ (execSetCivil_released p hr) (blind.serve (blind.civilChange p 12 fun args t => ?_) s p _)
    split
    · exact .refl t
    · exact t.setCivil_pinsKept p _
  | stepCivil p =>
    exact key _ (execStepCivil_released p hr)
      (blind.serve (blind.civilChange p 9 fun _ t => t.stepCivil_pinsKept p _ _) s p _)
  | responseTransmissionEnd p =>
    have hlink : ∀ x : Link, PinsKept s (s.setLink p x) := blind.setLink s p
    refine key _ (execResponseTransmissionEnd_released p hr) ?_
    split
    · dsimp only
      split
      · exact (hlink _).trans (State.resetPort_pinsKept _ p false)
      · exact hlink _
    · exact hlink _
    · exact .refl s
    · exact .refl s
    · exact .refl s
  | ackTimeout p =>
    refine key _ (execAckTimeout_released p hr) ?_
    split
    · exact .refl s
    · exact .ite (s.ackExpired_pinsKept p) _
  | breakSeen p => exact key _ (execBreakSeen_released p hr) (.ite (s.resetPort_pinsKept p true) _)
  | _ => cases hc

/-! ### RST_N (R17, R130) -/

theorem State.deviceReset_pinsOk (s : State) :
    PinsOk { State.reset with freeCount := s.freeCount, pending := s.pending } := by
  obtain ⟨-, -, -, hpins, -⟩ := invariantsAtReset
  exact hpins

/-- The release sees a level on every pin. -/
theorem State.released_pinsOk {s : State} (hs : PinsOk s) (r1 r0 : Bool) (c0 c1 c2 c3 : Level) :
    PinsOk (s.released r1 r0 (s.firstSeen c0 c1 c2 c3)) := by
  have hsee : ∀ i : Input, ∃ v : Level,
      (s.released r1 r0 (s.firstSeen c0 c1 c2 c3)).input i = { s.input i with seen := some v } := by
    obtain ⟨h0, h1, h2, h3⟩ := s.input_released r1 r0 c0 c1 c2 c3
    intro i
    fin_cases i
    exacts [⟨c0, h0⟩, ⟨c1, h1⟩, ⟨c2, h2⟩, ⟨c3, h3⟩]
  obtain ⟨hline, hinput, -⟩ := hs
  refine ⟨hline, fun i => ?_, fun _ i => ?_⟩
  · obtain ⟨v, hv⟩ := hsee i
    rw [hv]
    exact hinput i
  · obtain ⟨v, hv⟩ := hsee i
    rw [hv]
    exact Option.some_ne_none v

theorem exec_pinsOk {c : Instr} {s t : State} (hs : PinsOk s) (h : exec c s = .next t) : PinsOk t := by
  have key : ∀ u : State, exec c s = .next u → PinsOk u → PinsOk t := fun u => of_exec_eq h
  by_cases hd : c = .deviceReset
  · subst hd
    exact key _ (exec_deviceReset s) s.deviceReset_pinsOk
  · cases hr : s.rstN with
    | true =>
      cases hc : reachesPins c with
      | true => exact (exec_reachesPins_pinsKept hc hd hr h).pinsOk hr hs
      | false => exact (PinsKept.of_pins (exec_pins hc hr h)).pinsOk hr hs
    | false =>
      cases c with
      | resetRelease r1 r0 c0 c1 c2 c3 =>
        refine key _ (exec_resetRelease s r1 r0 c0 c1 c2 c3) ?_
        rw [hr]
        exact State.released_pinsOk hs r1 r0 c0 c1 c2 c3
      | _ => exact key s (exec_of_low hr hd (by simp)) hs

/-- Settles O58: the commands that reach the pins keep each as its chapter says (`exec_reachesPins_pinsKept`), all others
leave them (`exec_pins`), and the two of RST_N start from the reset values or from a level seen on every pin; a REFCLK
cycle and the queue of commands are nothing to it. -/
theorem pinsInvariant : Obligations.PinsInvariant :=
  step_keeps (fun _ _ hs => hs) (fun _ hs _ => hs) (fun _ _ _ hs h => exec_pinsOk hs h)

end Sys2Proof.Machine
end

section
/-! SUPPORT. The requests and events of the Capture Unit: their operands read back, what a claim, a release and an edge
come to by the input's owner, mode and state, and the holdoff expiry (R130 to R139).
-/

namespace Sys2Proof.Machine

/-! ### Operands (R131) -/

theorem decodeInput_of_val {b : Byte} {i : Input} (h : b.toNat = i.val) : decodeInput b = some i := by
  simp [decodeInput, h]

theorem decodeInput_outside {b : Byte} (h : 4 ≤ b.toNat) : decodeInput b = none :=
  dif_neg (Nat.not_lt.2 h)

theorem decodeEdgeMode_outside {b : Byte} (h : 2 < b.toNat) : decodeEdgeMode b = none := by
  revert b
  decide

theorem decodeEdgeMode_inside {b : Byte} {mode : EdgeMode}
    (h : (b = 0 ∧ mode = .rising) ∨ (b = 1 ∧ mode = .falling) ∨ (b = 2 ∧ mode = .both)) :
    decodeEdgeMode b = some mode := by
  rcases h with ⟨rfl, rfl⟩ | ⟨rfl, rfl⟩ | ⟨rfl, rfl⟩ <;> rfl

/-! ### Entries taken one by one, each from its own slot -/

/-- An operation on one entry leaves the slots of the others, and run time. -/
structure ReachesOneSlot (f : State → EntryId → State) : Prop where
  slot    : ∀ (u : State) {id j : EntryId}, j ≠ id → (f u id).slot j = u.slot j
  runTime : ∀ (u : State) (id : EntryId), (f u id).runTime = u.runTime

theorem State.armMono_slot_ne (s : State) {id j : EntryId} (e : Entry) (due : Nat) (late : Bool) (h : j ≠ id) :
    (s.armMono id e due late).slot j = s.slot j := by
  simp [State.armMono, State.setEntry, h]

theorem State.endEntry_reachesOneSlot (reason : EndReason) : ReachesOneSlot (fun u id => u.endEntry id reason) where
  slot u id j h := by
    cases he : (u.slot id).entry with
    | none => simp only [State.endEntry, he]
    | some e => rw [State.endEntry_of_entry reason he, State.slot_freeEntry, if_neg h, State.offer_slot]
  runTime u id := u.endEntry_runTime id reason

theorem State.armByEdge_reachesOneSlot : ReachesOneSlot State.armByEdge where
  slot u id j h := by
    unfold State.armByEdge
    split
    · rfl
    · split
      · exact u.armMono_slot_ne _ _ _ h
      all_goals rfl
  runTime := State.armByEdge_runTime

/-- Entries that are taken one by one may be read in the state `s` that the first of them was found in: none of them is
changed before its turn. -/
theorem ReachesOneSlot.foldl_eq {f g : State → EntryId → State} (hf : ReachesOneSlot f) {s : State}
    {ids : List EntryId} (hn : ids.Nodup)
    (hfg : ∀ u : State, ∀ id ∈ ids, u.slot id = s.slot id → u.runTime = s.runTime → f u id = g u id)
    {u : State} (hu : ∀ id ∈ ids, u.slot id = s.slot id) (hr : u.runTime = s.runTime) :
    ids.foldl f u = ids.foldl g u := by
  induction ids generalizing u with
  | nil => rfl
  | cons id ids ih =>
    obtain ⟨hid, hn⟩ := List.nodup_cons.1 hn
    rw [List.foldl_cons, List.foldl_cons, ← hfg u id (by simp) (hu id (by simp)) hr]
    refine ih hn (fun v j hj => hfg v j (by simp [hj])) (fun j hj => ?_) ((hf.runTime u id).trans hr)
    have hne : j ≠ id := fun h => hid (h ▸ hj)
    exact (hf.slot u hne).trans (hu j (by simp [hj]))

/-! ### The entries of a port on an input (R133, R137) -/

theorem Entry.waitsOn_iff (e : Entry) (p : Port) (i : Input) :
    e.waitsOn p i = true ↔ e.owner = p ∧ ∃ delay rearm due, e.timing = .afterCapture i delay rearm due := by
  rw [Entry.waitsOn, Bool.and_eq_true, beq_iff_eq]
  cases e.timing <;> simp

/-- The ids of a port's entries on an input, with the condition on their state put before that on their timing. -/
theorem State.filter_waitsOn (s : State) (p : Port) (i : Input) {onInput : Entry → Bool}
    (h : ∀ e : Entry, e.waitsOn p i = (e.owner == p && onInput e)) (inState : Entry → Bool) :
    allIds.filter (fun id => (s.slot id).entry.any (fun e => e.waitsOn p i && inState e)) =
      allIds.filter (fun id => (s.slot id).entry.any (fun e => e.owner == p && inState e && onInput e)) := by
  simp only [h, Bool.and_right_comm]

/-- Every id that R133 and R137 collect is that of an entry of the port on the input. -/
theorem State.entry_of_mem_filter_waitsOn {s : State} {p : Port} {i : Input} {inState : Entry → Bool} {id : EntryId}
    (h : id ∈ allIds.filter (fun id => (s.slot id).entry.any (fun e => e.waitsOn p i && inState e))) :
    ∃ e : Entry, (s.slot id).entry = some e ∧ e.owner = p ∧
      ∃ delay rearm due, e.timing = .afterCapture i delay rearm due := by
  obtain ⟨e, he, hw⟩ := (Option.any_eq_true _ _).1 (List.mem_filter.1 h).2
  obtain ⟨hw, -⟩ := (Bool.and_eq_true _ _).mp hw
  exact ⟨e, he, (e.waitsOn_iff p i).1 hw⟩

theorem State.nodup_lostAtRelease (s : State) (p : Port) (i : Input) : (s.lostAtRelease p i).Nodup :=
  (List.nodup_finRange 64).filter _

theorem State.nodup_waitingOn (s : State) (p : Port) (i : Input) : (s.waitingOn p i).Nodup :=
  (List.nodup_finRange 64).filter _

/-! ### CLAIM_INPUT and RELEASE_INPUT (R132, R133) -/

section
variable {s : State} {p : Port} {i : Input} {c : InputClaim}

theorem InputClaim.bytes_eq (c : InputClaim) :
    c.bytes = (if c.holdoffEnd = none then 0 else 1) :: toBytes 2 c.suppressed := by
  rw [InputClaim.bytes]
  cases c.holdoffEnd <;> rfl

theorem State.claimInput_free (mode : EdgeMode) (holdoff : Nat) (h : (s.input i).claim = none) :
    s.claimInput p i mode holdoff =
      (s.setClaim i (some { owner := p, mode := mode, holdoff := holdoff, holdoffEnd := none, suppressed := 0 }),
       Reply.okWith [0, 0, 0]) := by
  simp [State.claimInput, h, InputClaim.bytes_eq, toBytes]

theorem State.claimInput_own (mode : EdgeMode) (holdoff : Nat) (h : (s.input i).claim = some c) (ho : c.owner = p) :
    s.claimInput p i mode holdoff =
      (s.setClaim i (some { c with mode := mode, holdoff := holdoff }),
       Reply.okWith ((if c.holdoffEnd = none then 0 else 1) :: toBytes 2 c.suppressed)) := by
  simp only [State.claimInput, h, if_pos ho, InputClaim.bytes_eq]

theorem State.claimInput_held (mode : EdgeMode) (holdoff : Nat) (h : (s.input i).claim = some c) (ho : c.owner ≠ p) :
    s.claimInput p i mode holdoff =
      (s, { status := .held, results := [BitVec.ofNat 8 c.owner.val], resets := false }) := by
  simp only [State.claimInput, h, if_neg ho, portByte]

/-- R133: the entries on the input end one after the other, each with the record of the state before the release. -/
theorem State.releaseInput_eq {ids : List EntryId} {g : State → EntryId → State} (hids : s.lostAtRelease p i = ids)
    (hg : ∀ (u : State) (id : EntryId) (e : Entry), (s.slot id).entry = some e →
      g u id = (u.offer p (endedRecord s id e .captureLost)).freeEntry id) :
    s.releaseInput p i =
      ((ids.foldl g s).setInput i { claim := none, seen := (s.input i).seen },
       Reply.okWith (toBytes 1 ids.length)) := by
  subst hids
  have hinput : ((s.lostAtRelease p i).foldl (fun t id => t.endEntry id .captureLost) s).input i = s.input i :=
    State.foldl_field _ (fun t => t.input i) (fun t id => t.endEntry_input id .captureLost i) _ s
  have hended : (s.lostAtRelease p i).foldl (fun t id => t.endEntry id .captureLost) s =
      (s.lostAtRelease p i).foldl g s := by
    refine (State.endEntry_reachesOneSlot .captureLost).foldl_eq (s.nodup_lostAtRelease p i)
      (fun u id hid hslot hrun => ?_) (fun _ _ => rfl) rfl
    obtain ⟨e, he, rfl, -⟩ := State.entry_of_mem_filter_waitsOn hid
    have hrecord : endedRecord u id e .captureLost = endedRecord s id e .captureLost := by
      simp only [endedRecord, hslot, hrun]
    rw [State.endEntry_of_entry .captureLost (hslot ▸ he), hrecord, hg u id e he]
  rw [State.releaseInput, State.setClaim, hinput, hended]

end

/-- Settles O40: each request's operands are read back, and the claim or the release is then carried out by the owner of
the input; the entries a release ends are found as they stood before it. -/
theorem inputRequests : Obligations.InputRequests := by
  refine ⟨?_, ?_⟩
  · intro s p tag inputByte modeByte holdoff hh h t
    have hholdoff : fieldAt (inputByte :: modeByte :: toBytes 2 holdoff) 2 2 = holdoff := by
      simpa using fieldAt_after [inputByte, modeByte] [] 2 holdoff hh
    have hexec := execClaimInput_released p h.1
    rw [State.serve_withLength h (n := 4) (by simp), byteAt_zero, byteAt_cons, byteAt_zero, hholdoff] at hexec
    refine ⟨fun hout => ?_, fun i mode hi hmode => ?_⟩
    · rcases hout with hout | hout
      · rw [decodeInput_outside hout] at hexec
        exact hexec
      · rw [decodeEdgeMode_outside hout] at hexec
        cases hinput : decodeInput inputByte <;> rw [hinput] at hexec <;> exact hexec
    · have hclaim : exec (.claimInput p) s = .next
          ((t.claimInput p i mode holdoff).1.respond p tag 0x28 (t.claimInput p i mode holdoff).2) := by
        rw [decodeInput_of_val hi, decodeEdgeMode_inside hmode] at hexec
        exact hexec
      refine ⟨fun hc => ?_, fun c hc ho => ?_, fun c hc ho => ?_⟩
      · exact hclaim.trans (by rw [State.claimInput_free (s := t) mode holdoff hc]; rfl)
      · exact hclaim.trans (by rw [State.claimInput_own (s := t) mode holdoff hc ho]; rfl)
      · exact hclaim.trans (by rw [State.claimInput_held (s := t) mode holdoff hc ho])
  · intro s p tag inputByte h t
    have hexec := execReleaseInput_released p h.1
    rw [State.serve_withLength h (n := 1) rfl, byteAt_zero] at hexec
    refine ⟨fun hout => ?_, fun i hi => ⟨fun ho => ?_, ?_⟩⟩
    · rw [decodeInput_outside hout] at hexec
      exact hexec
    · simp only [decodeInput_of_val hi, State.takeRequest_ownsInput, ho] at hexec
      exact hexec
    · intro ho ids ended
      simp only [decodeInput_of_val hi, State.takeRequest_ownsInput, ho] at hexec
      have hids : t.lostAtRelease p i = ids :=
        t.filter_waitsOn p i (fun e => by rw [Entry.waitsOn]; cases e.timing <;> rfl) _
      have hrelease : t.releaseInput p i = (ended.setInput i { claim := none, seen := (s.input i).seen },
          Reply.okWith (toBytes 1 ids.length)) := by
        refine State.releaseInput_eq hids fun u id e he => ?_
        rw [State.takeRequest_slot] at he
        simp only [he]
        rfl
      rw [if_pos trivial, hrelease] at hexec
      exact hexec

/-! ### An edge, by the input's owner, mode and state (R135 to R138) -/

theorem flipLevel_ne (v : Level) : flipLevel v ≠ v := by
  cases v <;> decide

/-- R130: a level other than the one seen is one edge. -/
theorem execCaptureEdge_changed {s : State} {i : Input} {level : Level} (hr : s.rstN = true)
    (h : (s.input i).seen = some (flipLevel level)) :
    exec (.captureEdge i level) s =
      .next ((s.setInput i { s.input i with seen := some level }).takeEdge i (polarityTo level)) := by
  rw [execCaptureEdge_released i level hr, h]
  exact congrArg _ (if_neg (flipLevel_ne level))

section
variable {s : State} {i : Input} {c : InputClaim} {pol : Polarity}

theorem State.takeEdge_unowned (pol : Polarity) (h : (s.input i).claim = none) : s.takeEdge i pol = s := by
  simp only [State.takeEdge, h]

theorem State.takeEdge_otherPolarity (h : (s.input i).claim = some c) (hm : c.mode.accepts pol = false) :
    s.takeEdge i pol = s := by
  simp only [State.takeEdge, h, hm]
  rfl

theorem State.takeEdge_holdoff (h : (s.input i).claim = some c) (hm : c.mode.accepts pol = true)
    (hh : c.holdoffEnd ≠ none) :
    s.takeEdge i pol = s.setClaim i (some { c with suppressed := min 65535 (c.suppressed + 1) }) := by
  obtain ⟨t, ht⟩ := Option.ne_none_iff_exists'.1 hh
  simp only [State.takeEdge, h, if_pos hm, ht, saturate]

theorem State.takeEdge_accepting (h : (s.input i).claim = some c) (hm : c.mode.accepts pol = true)
    (hh : c.holdoffEnd = none) : s.takeEdge i pol = s.acceptEdge i c pol := by
  simp only [State.takeEdge, h, if_pos hm, hh]

/-- R136 to R138: CAPTURE is offered, the waiting entries are armed as they stood before the edge, and the input enters
its holdoff. -/
theorem State.acceptEdge_eq {ids : List EntryId} {g : State → EntryId → State} (hids : s.waitingOn c.owner i = ids)
    (hg : ∀ (u : State) (id : EntryId) (e : Entry) (delay : Nat) (rearm : Bool) (due : Option Nat),
      (s.slot id).entry = some e → e.timing = .afterCapture i delay rearm due →
      g u id = u.armMono id e (endInstant s.runTime delay) false) :
    s.acceptEdge i c pol =
      (ids.foldl g (s.offer c.owner (.capture
        { input := i, polarity := pol, runStamp := s.runTime, civilStamp := s.civil, suppressed := c.suppressed,
          armed := ids.length }))).setInput i
        { claim := some (c.afterEdge s.runTime), seen := (s.input i).seen } := by
  subst hids
  simp only [State.acceptEdge]
  generalize Record.capture _ = r
  have hinput : ((s.waitingOn c.owner i).foldl State.armByEdge (s.offer c.owner r)).input i = s.input i :=
    State.foldl_field _ (fun t => t.input i) (fun t id => t.armByEdge_input id i) _ _
  have harmed : (s.waitingOn c.owner i).foldl State.armByEdge (s.offer c.owner r) =
      (s.waitingOn c.owner i).foldl g (s.offer c.owner r) := by
    refine State.armByEdge_reachesOneSlot.foldl_eq (s := s) (s.nodup_waitingOn c.owner i)
      (fun u id hid hslot hrun => ?_) (fun _ _ => rfl) rfl
    obtain ⟨e, he, -, delay, rearm, due, ht⟩ := State.entry_of_mem_filter_waitsOn hid
    simp only [State.armByEdge, hslot, he, ht, hrun, hg u id e delay rearm due he ht]
  rw [State.setClaim, hinput, harmed]

end

/-- Settles O41: the level is the one seen, or an edge that `State.takeEdge` handles by the input's owner, mode and
state; the entries an accepted edge arms are found as they stood before it. -/
theorem captureEdge : Obligations.CaptureEdge := by
  intro s i level hr seen
  refine ⟨fun hsame => ?_, fun hother => ⟨fun hc => ?_, fun c hc => ?_⟩⟩
  · rw [execCaptureEdge_released i level hr, hsame]
    exact congrArg _ (if_pos rfl)
  · rw [execCaptureEdge_changed hr hother]
    exact congrArg _ (State.takeEdge_unowned _ (by simpa using hc))
  · intro pol
    have hpol : polarityTo level = pol := by cases level <;> rfl
    have hinput : seen.input i = { s.input i with seen := some level } := by simp [seen]
    have hclaim : (seen.input i).claim = some c := by rw [hinput]; exact hc
    have hedge : exec (.captureEdge i level) s = .next (seen.takeEdge i pol) :=
      hpol ▸ execCaptureEdge_changed hr hother
    refine ⟨fun hm => ?_, fun hm hh => ?_, fun hm hh => ?_⟩
    · rw [hedge, State.takeEdge_otherPolarity hclaim hm]
    · rw [hedge, State.takeEdge_holdoff hclaim hm hh, State.setClaim, hinput]
    · intro ids record armed
      have hids : seen.waitingOn c.owner i = ids :=
        seen.filter_waitsOn c.owner i (fun e => by rw [Entry.waitsOn]; cases e.timing <;> rfl) _
      have haccept : seen.acceptEdge i c pol =
          armed.setInput i { claim := some (c.afterEdge s.runTime), seen := (seen.input i).seen } := by
        refine State.acceptEdge_eq hids fun u id e delay rearm due he ht => ?_
        rw [State.setInput_slot] at he
        simp only [he, ht]
        rfl
      rw [hedge, State.takeEdge_accepting hclaim hm hh, haccept, hinput]
      rfl

/-! ### The holdoff expiry (R139) -/

/-- Settles O42: the holdoff end has come, has not come, or is not there. -/
theorem holdoffExpiry : Obligations.HoldoffExpiry := by
  intro s i c hr hc
  have hexec := execHoldoffExpiry_released i hr
  rw [hc] at hexec
  refine ⟨fun t ht hend => ?_, fun t ht hend => ?_, fun ht => ?_⟩
  · simp only [ht, if_pos hend] at hexec
    exact hexec
  · simp only [ht, if_neg (Nat.not_le.2 hend)] at hexec
    exact hexec
  · simp only [ht] at hexec
    exact hexec

end Sys2Proof.Machine
end

section
/-! SUPPORT. One port's queue, engine and link: what an offer comes to, and that each operation of theirs keeps them in
their ranges and in agreement (R146, R147, R152, R162 to R170, R180 to R185).
-/

namespace Sys2Proof.Machine

/-! ### An offer (R147, R148, R163) -/

/-- R148: a TIME_CHANGE or PEER_RESET record whose switch is off. -/
theorem NoteQueue.masksOff_iff (q : NoteQueue) (r : Record) :
    q.masksOff r = true ↔
      (∃ x, r = .timeChange x ∧ q.timeChangeOn = false) ∨ (∃ x, r = .peerReset x ∧ q.peerResetOn = false) := by
  cases r <;> simp [NoteQueue.masksOff]

section Offer

variable {q : NoteQueue} {ps : PortState} {r : Record}

theorem NoteQueue.offer_masked (hm : q.masksOff r = true) : q.offer r = q := if_pos hm

theorem NoteQueue.offer_full (hm : ¬q.masksOff r = true) (hfull : 16 ≤ q.records.length) :
    q.offer r = { q with pendingLost := min 255 (q.pendingLost + 1), lostTotal := q.lostTotal + 1 } :=
  (if_neg hm).trans (if_pos hfull)

theorem NoteQueue.offer_room (hm : ¬q.masksOff r = true) (hroom : q.records.length < 16) :
    q.offer r =
      { q with
        records := q.records ++ [{ seq := q.nextSeq, lostBefore := q.pendingLost, record := r }]
        nextSeq := q.nextSeq + 1, pendingLost := 0 } :=
  (if_neg hm).trans (if_neg (Nat.not_le.2 hroom))

/-- An offer that leaves the records as they are hands no frame. -/
theorem PortState.offer_of_sameRecords (h : (ps.queue.offer r).records = ps.queue.records) :
    ps.offer r = { ps with queue := ps.queue.offer r } := by
  simp [PortState.offer, h]

theorem PortState.offer_masked (hm : ps.queue.masksOff r = true) : ps.offer r = ps := by
  have hq := NoteQueue.offer_masked hm
  rw [PortState.offer_of_sameRecords (by rw [hq]), hq]

theorem PortState.offer_full (hm : ¬ps.queue.masksOff r = true) (hfull : 16 ≤ ps.queue.records.length) :
    ps.offer r =
      { ps with queue := { ps.queue with
          pendingLost := min 255 (ps.queue.pendingLost + 1), lostTotal := ps.queue.lostTotal + 1 } } := by
  have hq := NoteQueue.offer_full hm hfull
  rw [PortState.offer_of_sameRecords (by rw [hq]), hq]

theorem PortState.offer_room (hm : ¬ps.queue.masksOff r = true) (hroom : ps.queue.records.length < 16) :
    ps.offer r =
      { ps with
        queue := { ps.queue with
          records := ps.queue.records ++
            [{ seq := ps.queue.nextSeq, lostBefore := ps.queue.pendingLost, record := r }]
          nextSeq := ps.queue.nextSeq + 1, pendingLost := 0 }
        engine := if ps.queue.records = [] ∧ ps.engine.state = .idle then ps.engine.hand else ps.engine } := by
  simp [PortState.offer, NoteQueue.offer_room hm hroom]

end Offer

/-- Settles O43: the three cases of `PortState.offer`, which changes the one port alone. -/
theorem offerOfARecord : Obligations.OfferOfARecord := by
  intro s p r ps masked
  have hself : (s.offer p r).port p = ps.offer r := by rw [State.port_offer, if_pos rfl]
  have hmasked : ps.queue.masksOff r = true ↔ masked := ps.queue.masksOff_iff r
  refine ⟨?_, fun q hq => by rw [State.port_offer, if_neg hq], fun hm => ?_, fun hm hfull => ?_, fun hm hroom => ?_⟩
  · exact ⟨⟨rfl, rfl, rfl, rfl, rfl⟩, ⟨rfl, rfl, rfl⟩, ⟨rfl, rfl⟩, ⟨rfl, rfl, rfl⟩, ⟨rfl, rfl, rfl⟩, ⟨rfl, rfl⟩, rfl, rfl⟩
  · rw [hself, PortState.offer_masked (hmasked.2 hm)]
  · rw [hself, PortState.offer_full (mt hmasked.1 hm) hfull]
  · rw [hself, PortState.offer_room (mt hmasked.1 hm) hroom]
    rfl

/-! ### The queue (R146, R150, R152, R154) -/

/-- R152: a record appended has the number before the next one; those before it are one further back. -/
theorem NoteQueue.append_ok {q : NoteQueue} (hq : q.ok) (hroom : q.records.length < 16) (r : Record) :
    NoteQueue.ok
      { q with
        records := q.records ++ [{ seq := q.nextSeq, lostBefore := q.pendingLost, record := r }]
        nextSeq := q.nextSeq + 1, pendingLost := 0 } := by
  obtain ⟨-, hseq, hpending, hlost⟩ := hq
  refine ⟨?_, fun i hi => ?_, Nat.zero_le _, fun x hx => ?_⟩
  · simpa using hroom
  · simp only [List.length_append, List.length_singleton] at hi ⊢
    by_cases hold : i < q.records.length
    · have hback : q.records.length + 1 - i = q.records.length - i + 1 := by omega
      rw [List.getElem_append_left hold, hseq i hold, hback]
      bv_omega
    · obtain rfl : i = q.records.length := by omega
      rw [List.getElem_append_right (Nat.le_refl _)]
      simp
  · rcases List.mem_append.1 hx with hx | hx
    · exact hlost x hx
    · rw [List.mem_singleton.1 hx]
      exact hpending

theorem NoteQueue.offer_ok {q : NoteQueue} (hq : q.ok) (r : Record) : (q.offer r).ok := by
  by_cases hm : q.masksOff r = true
  · rw [NoteQueue.offer_masked hm]
    exact hq
  · rcases Nat.lt_or_ge q.records.length 16 with hroom | hfull
    · rw [NoteQueue.offer_room hm hroom]
      exact NoteQueue.append_ok hq hroom r
    · obtain ⟨hlen, hseq, -, hlost⟩ := hq
      rw [NoteQueue.offer_full hm hfull]
      exact ⟨hlen, hseq, Nat.min_le_left _ _, hlost⟩

/-- R154: the records behind the head keep their numbers, and the next number is as far behind them as before. -/
theorem NoteQueue.tail_ok {q : NoteQueue} (hq : q.ok) : NoteQueue.ok { q with records := q.records.drop 1 } := by
  obtain ⟨hlen, hseq, hpending, hlost⟩ := hq
  refine ⟨?_, fun i hi => ?_, hpending, fun r hr => hlost r (List.mem_of_mem_drop hr)⟩
  · rw [List.length_drop]
    omega
  · simp only [List.length_drop] at hi ⊢
    have hback : q.records.length - 1 - i = q.records.length - (1 + i) := by omega
    rw [List.getElem_drop, hseq (1 + i) (by omega), hback]

/-! ### The engine (Table 9-2, R162 to R170) -/

section Engine

variable {e : Engine} {empty : Bool}

theorem Engine.ok.config : e.ok empty → e.config.ok := fun ⟨h, _⟩ => h

theorem Engine.ok.idle (h : e.ok empty) (hs : e.state = .idle) :
    empty = true ∧ e.frame = .absent ∧ e.ackEnd = none ∧ e.backoffEnd = none ∧ e.attempts = 0 := by
  obtain ⟨-, -, h⟩ := h
  simpa only [hs] using h

theorem Engine.ok.awaitAck (h : e.ok empty) (hs : e.state = .awaitAck) :
    empty = false ∧ e.backoffEnd = none ∧ (e.frame = .absent ↔ e.ackEnd ≠ none) ∧ e.attempts ≤ 15 := by
  obtain ⟨-, -, h⟩ := h
  simpa only [hs] using h

theorem Engine.ok.backoff (h : e.ok empty) (hs : e.state = .backoff) :
    empty = false ∧ e.ackEnd = none ∧ (e.frame = .absent ↔ e.backoffEnd ≠ none) ∧ e.attempts ≤ 15 := by
  obtain ⟨-, -, h⟩ := h
  simpa only [hs] using h

theorem Engine.ok.stalled (h : e.ok empty) (hs : e.state = .stalled) :
    empty = false ∧ e.frame = .absent ∧ e.ackEnd = none ∧ e.backoffEnd = none ∧ e.attempts ≤ 16 := by
  obtain ⟨-, -, h⟩ := h
  simpa only [hs] using h

theorem Engine.ok.stalledAt_none (h : e.ok empty) (hs : e.state ≠ .stalled) : e.stalledAt = none := by
  obtain ⟨-, h, -⟩ := h
  exact not_not.1 (mt h.2 hs)

/-- R163: the queue of an IDLE engine is empty, and no other engine's is. -/
theorem Engine.ok.idle_iff (h : e.ok empty) : e.state = .idle ↔ empty = true := by
  refine ⟨fun hs => (h.idle hs).1, fun hempty => ?_⟩
  subst hempty
  cases hs : e.state with
  | idle => rfl
  | awaitAck => exact absurd (h.awaitAck hs).1 (by decide)
  | backoff => exact absurd (h.backoff hs).1 (by decide)
  | stalled => exact absurd (h.stalled hs).1 (by decide)

/-- R164: the engine waits with its frame at the arbiter in AWAIT_ACK or in BACKOFF, where no timer runs. -/
theorem Engine.ok.frame_present (h : e.ok empty) (hf : e.frame ≠ .absent) :
    (e.state = .awaitAck ∨ e.state = .backoff) ∧ empty = false ∧ e.ackEnd = none ∧ e.backoffEnd = none ∧
    e.attempts ≤ 15 := by
  cases hs : e.state with
  | idle =>
    obtain ⟨-, hframe, -⟩ := h.idle hs
    exact absurd hframe hf
  | awaitAck =>
    obtain ⟨hempty, hback, hack, hattempts⟩ := h.awaitAck hs
    exact ⟨.inl rfl, hempty, not_not.1 (mt hack.2 hf), hback, hattempts⟩
  | backoff =>
    obtain ⟨hempty, hack, hback, hattempts⟩ := h.backoff hs
    exact ⟨.inr rfl, hempty, hack, not_not.1 (mt hback.2 hf), hattempts⟩
  | stalled =>
    obtain ⟨-, hframe, -⟩ := h.stalled hs
    exact absurd hframe hf

/-- The ack timer runs in AWAIT_ACK only, with no frame at the arbiter. -/
theorem Engine.ok.ackEnd_some (h : e.ok empty) (ha : e.ackEnd ≠ none) :
    e.state = .awaitAck ∧ empty = false ∧ e.frame = .absent ∧ e.backoffEnd = none ∧ e.attempts ≤ 15 := by
  cases hs : e.state with
  | idle =>
    obtain ⟨-, -, hack, -⟩ := h.idle hs
    exact absurd hack ha
  | awaitAck =>
    obtain ⟨hempty, hback, hack, hattempts⟩ := h.awaitAck hs
    exact ⟨rfl, hempty, hack.2 ha, hback, hattempts⟩
  | backoff =>
    obtain ⟨-, hack, -⟩ := h.backoff hs
    exact absurd hack ha
  | stalled =>
    obtain ⟨-, -, hack, -⟩ := h.stalled hs
    exact absurd hack ha

/-- The backoff timer runs in BACKOFF only, with no frame at the arbiter. -/
theorem Engine.ok.backoffEnd_some (h : e.ok empty) (hb : e.backoffEnd ≠ none) :
    e.state = .backoff ∧ empty = false ∧ e.frame = .absent ∧ e.ackEnd = none ∧ e.attempts ≤ 15 := by
  cases hs : e.state with
  | idle =>
    obtain ⟨-, -, -, hback, -⟩ := h.idle hs
    exact absurd hback hb
  | awaitAck =>
    obtain ⟨-, hback, -⟩ := h.awaitAck hs
    exact absurd hback hb
  | backoff =>
    obtain ⟨hempty, hack, hback, hattempts⟩ := h.backoff hs
    exact ⟨rfl, hempty, hback.2 hb, hack, hattempts⟩
  | stalled =>
    obtain ⟨-, -, -, hback, -⟩ := h.stalled hs
    exact absurd hback hb

/-- R163, R165, R169: a frame handed anew, no timer running. -/
theorem Engine.hand_ok (hc : e.config.ok) (hs : e.stalledAt = none) (ha : e.ackEnd = none) (hb : e.backoffEnd = none) :
    e.hand.ok false :=
  ⟨hc, iff_of_false (by simp [Engine.hand]) (by simp [Engine.hand, hs]), rfl, hb,
    iff_of_false (by simp [Engine.hand]) (by simp [Engine.hand, ha]), Nat.zero_le _⟩

/-- R163: an IDLE engine given the first record of its queue. -/
theorem Engine.hand_ok_of_idle (h : e.ok empty) (hs : e.state = .idle) : e.hand.ok false := by
  obtain ⟨-, -, hack, hback, -⟩ := h.idle hs
  exact Engine.hand_ok h.config (h.stalledAt_none (by simp [hs])) hack hback

/-- R169. -/
theorem Engine.resume_ok (h : e.ok empty) : e.resume.ok empty := by
  unfold Engine.resume
  split
  · next hs =>
    obtain ⟨rfl, -, hack, hback, -⟩ := h.stalled hs
    exact Engine.hand_ok (e := { e with stalledAt := none, retransmissions := e.retransmissions + 1 }) h.config rfl hack
      hback
  · exact h

/-- R165: with a record left its frame is handed, otherwise the engine is IDLE. -/
theorem Engine.acked_ok (h : e.ok empty) (more : Bool) : (e.acked more).ok (!more) := by
  cases more with
  | true =>
    exact Engine.hand_ok
      (e := { e with stalledAt := none, ackEnd := none, backoffEnd := none, delivered := e.delivered + 1 })
      h.config rfl rfl rfl
  | false => exact ⟨h.config, iff_of_false (by simp [Engine.acked]) (by simp [Engine.acked]), rfl, rfl, rfl, rfl, rfl⟩

/-- R164: the ack timer starts when the engine's own frame has been sent. -/
theorem Engine.sent_ok (h : e.ok empty) (hf : e.frame = .onWire) (now : Nat) : (e.sent now).ok empty := by
  obtain ⟨hstate, rfl, -, hback, hattempts⟩ := h.frame_present (by simp [hf])
  have hs : e.state ≠ .stalled := by rcases hstate with h | h <;> simp [h]
  rw [Engine.sent, if_pos hstate]
  exact ⟨h.config, iff_of_false (by simp) (by simp [h.stalledAt_none hs]), rfl, hback, iff_of_true rfl (by simp), hattempts⟩

/-- R172: the frame goes from the arbiter to the line. -/
theorem Engine.onWire_ok (h : e.ok empty) (hf : e.frame = .queued) : Engine.ok { e with frame := .onWire } empty := by
  obtain ⟨hstate, rfl, hack, hback, hattempts⟩ := h.frame_present (by simp [hf])
  have hs : e.state ≠ .stalled := by rcases hstate with h | h <;> simp [h]
  have hstalled := iff_of_false hs (not_not.2 (h.stalledAt_none hs))
  refine ⟨h.config, hstalled, ?_⟩
  rcases hstate with hs | hs <;> simp [hs, hack, hback, hattempts]

/-- R167: within the retry limit the engine backs off. -/
theorem Engine.backOff_ok (h : e.ok empty) (ha : e.ackEnd ≠ none) {attempts : Nat}
    (hl : attempts ≤ e.config.retryLimit) (now : Nat) : (e.backOff now attempts).ok empty := by
  obtain ⟨hs, rfl, hframe, -, -⟩ := h.ackEnd_some ha
  obtain ⟨-, -, hlimit, -⟩ := h.config
  exact ⟨h.config, iff_of_false (by simp [Engine.backOff]) (by simp [Engine.backOff, h.stalledAt_none (by simp [hs])]),
    rfl, rfl, iff_of_true hframe (by simp [Engine.backOff]), hl.trans hlimit⟩

/-- R167: past the retry limit the engine is STALLED. -/
theorem Engine.stall_ok (h : e.ok empty) (ha : e.ackEnd ≠ none) (now : Nat) :
    Engine.ok { e with state := .stalled, stalledAt := some now, attempts := e.attempts + 1, ackEnd := none } empty := by
  obtain ⟨-, rfl, hframe, hback, hattempts⟩ := h.ackEnd_some ha
  exact ⟨h.config, iff_of_true rfl (by simp), rfl, hframe, rfl, hback, Nat.succ_le_succ hattempts⟩

/-- R168. -/
theorem Engine.retransmit_ok (h : e.ok empty) (hb : e.backoffEnd ≠ none) : e.retransmit.ok empty := by
  obtain ⟨hs, rfl, -, hack, hattempts⟩ := h.backoffEnd_some hb
  have hns : e.retransmit.state ≠ .stalled := by simp [Engine.retransmit, hs]
  refine ⟨h.config, iff_of_false hns (not_not.2 (h.stalledAt_none hns)), ?_⟩
  simp [Engine.retransmit, hs, hack, hattempts]

/-- R171: no range of the engine's depends on its configuration. -/
theorem Engine.configure_ok (h : e.ok empty) {c : DeliveryConfig} (hc : c.ok) :
    Engine.ok { e with config := c } empty := by
  obtain ⟨-, hstalled, hstate⟩ := h
  exact ⟨hc, hstalled, hstate⟩

end Engine

end Sys2Proof.Machine
end

section
/-! SUPPORT. One port's link, and the port as a whole: each operation keeps the receiver inside its frame, the FIFO, the
pending responses and the fault record in their ranges, and the engine's frame on the wire exactly while the line carries
it (R164, R165, R172, R173, R180 to R185, R191).
-/

namespace Sys2Proof.Machine

/-! ### The link (R180 to R185) -/

section Link

variable {l : Link}

/-- R183: a fault leaves a kind and a count that is not 0. -/
theorem FaultRecord.note_ok {f : FaultRecord} (hf : f.kind = .noFault ↔ f.count = 0) {k : FaultKind}
    (hk : k ≠ .noFault) : (f.note k).count ≤ 255 ∧ ((f.note k).kind = .noFault ↔ (f.note k).count = 0) := by
  refine ⟨Nat.min_le_left _ _, iff_of_false ?_ (by simp [FaultRecord.note, saturate])⟩
  unfold FaultRecord.note
  split
  · exact hk
  · next hcount => exact mt hf.1 hcount

/-- R183. -/
theorem Link.fault_ok (h : l.ok) {k : FaultKind} (hk : k ≠ .noFault) : (l.fault k).ok := by
  obtain ⟨-, -, hfifo, hresponses, -, hkind⟩ := h
  exact ⟨fun hw => (by cases hw), trivial, hfifo, hresponses, FaultRecord.note_ok hkind hk⟩

/-- Nothing is known of a line at mark with no character under way. -/
theorem Link.atRest_ok (h : l.ok) : Link.ok { l with spaceSince := none, arriving := none } := by
  obtain ⟨-, hrest⟩ := h
  exact ⟨fun _ => ⟨rfl, rfl⟩, hrest⟩

/-- A receiver inside its frame takes the place of another, save that WAIT_MARK knows nothing of the line. -/
theorem Link.setRx_ok (h : l.ok) {r : Receiver} (hr : r.ok) (hw : r ≠ .waitMark) : Link.ok { l with rx := r } := by
  obtain ⟨-, -, hrest⟩ := h
  exact ⟨fun h => absurd h hw, hr, hrest⟩

/-- R181, R184: only WAIT_MARK binds what is known of the line. -/
theorem Link.setLine_ok (h : l.ok) (hw : l.rx ≠ .waitMark) (space arriving : Option Nat) :
    Link.ok { l with spaceSince := space, arriving := arriving } := by
  obtain ⟨-, hrest⟩ := h
  exact ⟨fun h => absurd h hw, hrest⟩

theorem Link.ok.rx : l.ok → l.rx.ok := fun ⟨_, h, _⟩ => h

/-- R180: in WAIT_MARK no character is under way. -/
theorem Link.ok.hearing {start : Nat} (h : l.ok) (ha : l.arriving = some start) : l.rx ≠ .waitMark := by
  obtain ⟨hw, -⟩ := h
  intro hrx
  rw [(hw hrx).2] at ha
  cases ha

/-- R185. -/
theorem Link.take_ok (h : l.ok) : l.take.ok := by
  obtain ⟨hw, hrx, hfifo, hrest⟩ := h
  refine ⟨hw, hrx, ?_, hrest⟩
  simp only [Link.take, List.length_drop]
  omega

/-- R185, R186: an answer finds its place where fewer than four wait. -/
theorem Link.respond_ok (h : l.ok) (hroom : l.responses.length < 4) (tag code : Byte) (r : Reply) :
    (l.respond tag code r).ok := by
  obtain ⟨hw, hrx, hfifo, -, hrest⟩ := h
  refine ⟨hw, hrx, hfifo, ?_, hrest⟩
  simpa [Link.respond] using hroom

/-- R185: a port that may take a request has room for its response. -/
theorem Link.responses_lt_of_takable {payload : List Byte} (h : l.takable = some payload) : l.responses.length < 4 := by
  unfold Link.takable at h
  split at h
  · cases h
  · next hc =>
    rw [Bool.or_eq_true, not_or, decide_eq_true_iff] at hc
    exact Nat.lt_of_not_le hc.1

/-- R181, R184. -/
theorem Link.startBit_ok (h : l.ok) (now : Nat) : (l.startBit now).ok := by
  unfold Link.startBit
  split
  · exact h
  · next hc => exact Link.setLine_ok h (fun hw => hc (.inl hw)) _ _

theorem Receiver.unread_ok {r : Receiver} (hr : r.ok) (now : Nat) : (r.unread now).ok := by
  cases r <;> exact hr

theorem Receiver.unread_ne {r : Receiver} (hr : r ≠ .waitMark) (now : Nat) : r.unread now ≠ .waitMark := by
  cases r with
  | waitMark => exact absurd rfl hr
  | hunt | length | body => simp [Receiver.unread]

/-- R178, R181, R184. -/
theorem Link.endAtSpace_ok (h : l.ok) (b : Byte) (space now : Nat) : (l.endAtSpace b space now).ok := by
  cases ha : l.arriving with
  | none => rwa [Link.endAtSpace_idle ha]
  | some start =>
    by_cases hi : spaceInstant b start space now = true
    · have hw := h.hearing ha
      rw [Link.endAtSpace_eq ha hi]
      exact Link.setRx_ok (Link.setLine_ok h hw (some space) none) (Receiver.unread_ok h.rx now)
        (Receiver.unread_ne hw now)
    · simpa only [Link.endAtSpace, ha, if_neg hi] using h

/-- R180, R184. -/
theorem Link.atMark_ok (h : l.ok) : l.atMark.ok := by
  by_cases hw : l.rx = .waitMark
  · obtain ⟨hknown, hrest⟩ := h
    obtain ⟨-, harriving⟩ := hknown hw
    simp only [Link.atMark, if_pos hw]
    exact Link.setRx_ok (l := { l with spaceSince := none }) ⟨fun _ => ⟨rfl, harriving⟩, hrest⟩ trivial (by simp)
  · simp only [Link.atMark, if_neg hw]
    exact Link.setLine_ok h hw none l.arriving

/-- R173, R180, R191. -/
theorem Link.afterPortReset_ok (l : Link) (brk : Bool) : (l.afterPortReset brk).ok := by
  refine ⟨fun hw => ?_, ?_, Nat.zero_le _, Nat.zero_le _, Nat.zero_le _, iff_of_true rfl rfl⟩
  · cases brk with
    | true => exact ⟨rfl, rfl⟩
    | false => cases hw
  · cases brk <;> trivial

end Link

/-! ### The port (R164, R165, R172, R173) -/

section Port

variable {ps : PortState}

theorem PortState.ok.queue : ps.ok → ps.queue.ok := fun ⟨h, _⟩ => h

theorem PortState.ok.engine : ps.ok → ps.engine.ok ps.queue.records.isEmpty := fun ⟨_, h, _⟩ => h

theorem PortState.ok.link : ps.ok → ps.link.ok := fun ⟨_, _, h, _⟩ => h

theorem PortState.ok.onWire_iff : ps.ok → (ps.engine.frame = .onWire ↔ TxFrame.isLiveNote ps.link.tx = true) :=
  fun ⟨_, _, _, h⟩ => h

/-- A change of the link that leaves the frame on the line. -/
theorem PortState.setLink_ok (h : ps.ok) {l : Link} (hl : l.ok) (htx : l.tx = ps.link.tx) :
    PortState.ok { ps with link := l } :=
  ⟨h.queue, h.engine, hl, htx ▸ h.onWire_iff⟩

/-- A change of the engine that leaves its frame off the line, where it was. -/
theorem PortState.setEngine_ok (h : ps.ok) {e : Engine} (he : e.ok ps.queue.records.isEmpty)
    (hf : ps.engine.frame ≠ .onWire) (hf' : e.frame ≠ .onWire) : PortState.ok { ps with engine := e } :=
  ⟨h.queue, he, h.link, iff_of_false hf' (mt h.onWire_iff.2 hf)⟩

/-- R147, R163. -/
theorem PortState.offer_ok (h : ps.ok) (r : Record) : (ps.offer r).ok := by
  have hqueue := NoteQueue.offer_ok h.queue r
  by_cases hm : ps.queue.masksOff r = true
  · rw [PortState.offer_masked hm]
    exact h
  · rcases Nat.lt_or_ge ps.queue.records.length 16 with hroom | hfull
    · have hfilled : ∀ x : Queued, (ps.queue.records ++ [x]).isEmpty = false := fun x => by simp
      rw [NoteQueue.offer_room hm hroom] at hqueue
      rw [PortState.offer_room hm hroom]
      split
      · next hfirst =>
        obtain ⟨-, hidle⟩ := hfirst
        have hframe : ps.engine.frame = .absent := (h.engine.idle hidle).2.1
        refine ⟨hqueue, ?_, h.link, iff_of_false (by simp [Engine.hand]) (mt h.onWire_iff.2 (by simp [hframe]))⟩
        rw [hfilled]
        exact Engine.hand_ok_of_idle h.engine hidle
      · next hlater =>
        have hmore : ps.queue.records.isEmpty = false := by
          rw [← Bool.not_eq_true]
          exact fun hempty => hlater ⟨List.isEmpty_iff.1 hempty, h.engine.idle_iff.2 hempty⟩
        refine ⟨hqueue, ?_, h.link, h.onWire_iff⟩
        rw [hfilled, ← hmore]
        exact h.engine
    · rw [NoteQueue.offer_full hm hfull] at hqueue
      rw [PortState.offer_full hm hfull]
      exact ⟨hqueue, h.engine, h.link, h.onWire_iff⟩

theorem PortState.offerList_ok (h : ps.ok) (rs : List Record) : (ps.offerList rs).ok := by
  induction rs generalizing ps with
  | nil => exact h
  | cons r rs ih => exact ih (PortState.offer_ok h r)

/-- R159, R174, R191: what is left of a frame on the line is no longer the engine's. -/
theorem PortState.afterPortReset_ok (ps : PortState) (brk : Bool) : (ps.afterPortReset brk).ok := by
  obtain ⟨hqueue, hengine, -, -⟩ := PortState.reset_ok
  have hline : TxFrame.isLiveNote (ps.link.afterPortReset brk).tx = false := by
    rw [Link.afterPortReset_eq]
    rcases ps.link.tx with _ | (_ | _ | _) <;> cases brk <;> rfl
  exact ⟨hqueue, hengine, Link.afterPortReset_ok _ _,
    iff_of_false (by simp [PortState.afterPortReset, Engine.reset]) (Bool.eq_false_iff.1 hline)⟩

/-- R164, R172: the arbiter. -/
theorem PortState.startFrame_ok (h : ps.ok) : ps.startFrame.ok := by
  obtain ⟨hw, hrx, hfifo, hresponses, hrest⟩ := h.link
  unfold PortState.startFrame
  split
  · exact h
  · next r rest htx hr =>
    rw [hr] at hresponses
    have hframe : ps.engine.frame ≠ .onWire := mt h.onWire_iff.1 (by simp [htx, TxFrame.isLiveNote])
    exact ⟨h.queue, h.engine, ⟨hw, hrx, hfifo, Nat.le_of_succ_le hresponses, hrest⟩,
      iff_of_false hframe (by simp [TxFrame.isLiveNote])⟩
  · split
    · next hframe _ =>
      exact ⟨h.queue, Engine.onWire_ok h.engine hframe, ⟨hw, hrx, hfifo, hresponses, hrest⟩, iff_of_true rfl rfl⟩
    all_goals exact h

/-- The line is free once its frame has ended. -/
theorem PortState.freeLine_ok (h : ps.ok) (hline : TxFrame.isLiveNote ps.link.tx = false) :
    PortState.ok { ps with link := { ps.link with tx := none } } := by
  have hframe : ps.engine.frame ≠ .onWire := mt h.onWire_iff.1 (Bool.eq_false_iff.1 hline)
  exact ⟨h.queue, h.engine, h.link, iff_of_false hframe (by simp [TxFrame.isLiveNote])⟩

/-- R164, R173: the end of a NOTE frame. -/
theorem PortState.noteEnded_ok (h : ps.ok) (now : Nat) : (ps.noteEnded now).ok := by
  unfold PortState.noteEnded
  split
  · next live htx =>
    cases live with
    | false => exact PortState.freeLine_ok h (by simp [htx, TxFrame.isLiveNote])
    | true =>
      have hframe : ps.engine.frame = .onWire := h.onWire_iff.2 (by simp [htx, TxFrame.isLiveNote])
      have hsent : (ps.engine.sent now).frame = .absent := by
        unfold Engine.sent
        split <;> rfl
      exact ⟨h.queue, Engine.sent_ok h.engine hframe now, h.link,
        iff_of_false (by simp [hsent]) (by simp [TxFrame.isLiveNote])⟩
  · next htx => exact PortState.freeLine_ok h (by simp [htx, TxFrame.isLiveNote])
  all_goals exact h

/-- R154, R165: with the head gone the frame on the line, if it was the engine's, is so no longer. -/
theorem PortState.acceptAck_ok (h : ps.ok) : ps.acceptAck.ok := by
  have hline : TxFrame.isLiveNote (ps.link.tx.map TxFrame.disownNote) = false := by
    rcases ps.link.tx with _ | (_ | _ | _) <;> rfl
  have hframe : ∀ more : Bool, (ps.engine.acked more).frame ≠ .onWire := fun more => by
    cases more <;> simp [Engine.acked]
  refine ⟨NoteQueue.tail_ok h.queue, ?_, h.link, iff_of_false (hframe _) (Bool.eq_false_iff.1 hline)⟩
  have hengine := Engine.acked_ok h.engine (!(ps.queue.records.drop 1).isEmpty)
  rwa [Bool.not_not] at hengine

/-- R169: an engine that resumes was STALLED, its frame at the arbiter no more. -/
theorem PortState.resume_ok (h : ps.ok) : PortState.ok { ps with engine := ps.engine.resume } := by
  have hengine := Engine.resume_ok h.engine
  by_cases hs : ps.engine.state = .stalled
  · have hframe : ps.engine.frame = .absent := (h.engine.stalled hs).2.1
    exact PortState.setEngine_ok h hengine (by simp [hframe]) (by simp [Engine.resume, hs, Engine.hand])
  · rw [Engine.resume, if_neg hs]
    exact h

/-- R166, R169, R175. -/
theorem PortState.refuseAck_ok (h : ps.ok) (now : Nat) : (ps.refuseAck now).ok := by
  have hcounted : PortState.ok { ps with engine := { ps.engine with staleAcks := ps.engine.staleAcks + 1 } } := h
  unfold PortState.refuseAck Engine.staleAck
  dsimp only
  split
  · exact hcounted
  · exact PortState.resume_ok hcounted

/-- R171. -/
theorem PortState.configure_ok (h : ps.ok) {c : DeliveryConfig × Bool × Bool} (hc : c.1.ok) : (ps.configure c).ok :=
  ⟨h.queue, Engine.configure_ok h.engine hc, h.link, h.onWire_iff⟩

/-! ### The receiver (R180 to R183) -/

/-- R182: the frame joins the FIFO only where there is room. -/
theorem PortState.requestArrived_ok (h : ps.ok) (payload : List Byte) : (ps.requestArrived payload).ok := by
  have hresumed := PortState.resume_ok h
  unfold PortState.requestArrived
  dsimp only
  split
  · next hroom =>
    obtain ⟨-, -, -, hrest⟩ := h.link
    refine PortState.setLink_ok hresumed ⟨fun hw => (by cases hw), trivial, ?_, hrest⟩ rfl
    rw [List.length_append]
    exact hroom
  · exact PortState.setLink_ok hresumed (Link.fault_ok h.link (by decide)) rfl

theorem PortState.ackArrived_ok (h : ps.ok) (payload : List Byte) : (ps.ackArrived payload).ok :=
  PortState.setLink_ok h
    (Link.setRx_ok (l := { ps.link with acks := _, framesAccepted := _ }) h.link (r := .hunt) trivial (by simp)) rfl

theorem PortState.checkFrame_ok (h : ps.ok) (len : Byte) (chars : List Byte) : (ps.checkFrame len chars).ok := by
  have hfault : ∀ {k : FaultKind}, k ≠ .noFault → PortState.ok { ps with link := ps.link.fault k } := fun hk =>
    PortState.setLink_ok h (Link.fault_ok h.link hk) rfl
  unfold PortState.checkFrame
  dsimp only
  split
  · exact hfault (by decide)
  · split
    · exact PortState.requestArrived_ok h _
    · split
      · exact PortState.ackArrived_ok h _
      · exact hfault (by decide)

/-- R180: a LEN byte that is not out of range. -/
theorem lengthOutOfRange_false {b : Byte} (h : ¬lengthOutOfRange b = true) : 1 ≤ b.toNat ∧ b.toNat ≤ 200 := by
  simp only [lengthOutOfRange, Bool.or_eq_true, beq_iff_eq, decide_eq_true_eq, not_or] at h
  omega

/-- R180, R181: one case for each state of the receiver. -/
theorem PortState.receive_ok (h : ps.ok) (b : Byte) (now : Nat) : (ps.receive b now).ok := by
  have hidle := Link.atRest_ok h.link
  have htaken : ∀ r : Receiver, r.ok → r ≠ .waitMark →
      PortState.ok { ps with link := { ps.link with spaceSince := none, arriving := none, rx := r } } := fun r hr hw =>
    PortState.setLink_ok h (Link.setRx_ok hidle hr hw) rfl
  unfold PortState.receive
  dsimp only
  split
  · exact h
  · exact h
  · split
    · exact htaken _ trivial (by simp)
    · exact htaken _ trivial (by simp)
  · split
    · exact PortState.setLink_ok h (Link.fault_ok hidle (by decide)) rfl
    · next hlen =>
      obtain ⟨hlow, hhigh⟩ := lengthOutOfRange_false hlen
      exact htaken _ ⟨hlow, hhigh, Nat.succ_pos _⟩ (by simp)
  · next len chars _ _ hbody =>
    have hrx := h.link.rx
    rw [hbody] at hrx
    obtain ⟨hlow, hhigh, -⟩ := hrx
    split
    · next hmore => exact htaken _ ⟨hlow, hhigh, by simpa using hmore⟩ (by simp)
    · exact PortState.checkFrame_ok (PortState.setLink_ok h hidle rfl) _ _

end Port

end Sys2Proof.Machine
end

section
/-! SUPPORT. The ports of a state: the operations of the other units only offer records to them, a request is answered
where there is room, and a port reset leaves every port as its chapters say (R146, R147, R185, R191).
-/

namespace Sys2Proof.Machine

/-! ### The relation of a state to the next -/

/-- Every port stays as its chapters say, and none is answered. -/
structure PortsKept (s t : State) : Prop where
  ok        : ∀ q : Port, (s.port q).ok → (t.port q).ok
  responses : ∀ q : Port, (t.link q).responses = (s.link q).responses

theorem PortsKept.refl (s : State) : PortsKept s s := ⟨fun _ => id, fun _ => rfl⟩

theorem PortsKept.trans {s t u : State} (h : PortsKept s t) (k : PortsKept t u) : PortsKept s u where
  ok := fun q => k.ok q ∘ h.ok q
  responses := fun q => (k.responses q).trans (h.responses q)

theorem PortsKept.portsOk {s t : State} (h : PortsKept s t) (hs : PortsOk s) : PortsOk t := fun q => h.ok q (hs q)

theorem PortsKept.of_ports {s t : State} (h : t.ports = s.ports) : PortsKept s t := by
  have hport : ∀ q : Port, t.port q = s.port q := fun q => congrArg (·[q]) h
  exact ⟨fun q hq => hport q ▸ hq, fun q => congrArg (fun ps => ps.link.responses) (hport q)⟩

theorem PortsKept.setPort (s : State) (p : Port) {x : PortState} (hx : (s.port p).ok → x.ok)
    (hr : x.link.responses = (s.link p).responses) : PortsKept s (s.setPort p x) where
  ok := fun q h => by
    rw [State.port_setPort]
    split
    · next hq => exact hx (hq ▸ h)
    · exact h
  responses := fun q => by
    rw [State.link_setPort]
    split
    · next hq => exact hq ▸ hr
    · rfl

theorem PortsOk.setPort {s : State} (hs : PortsOk s) (p : Port) {x : PortState} (hx : x.ok) : PortsOk (s.setPort p x) :=
  fun q => by
    rw [State.port_setPort]
    split
    · exact hx
    · exact hs q

theorem PortsKept.offer (s : State) (p : Port) (r : Record) : PortsKept s (s.offer p r) :=
  .setPort s p (fun h => PortState.offer_ok h r) rfl

theorem PortsKept.offerEach (s : State) (f : Port → List Record) : PortsKept s (s.offerEach f) where
  ok := fun q h => s.port_offerEach f q ▸ PortState.offerList_ok h (f q)
  responses := fun q => by rw [State.link_offerEach]

theorem PortsKept.foldl {α : Type} {f : State → α → State} (h : ∀ s a, PortsKept s (f s a)) (xs : List α) (s : State) :
    PortsKept s (xs.foldl f s) := by
  induction xs generalizing s with
  | nil => exact .refl s
  | cons x xs ih => exact (h s x).trans (ih (f s x))

/-- A change that is made only under a condition. -/
theorem PortsKept.ite {s t : State} (h : PortsKept s t) (c : Prop) [Decidable c] :
    PortsKept s (if c then t else s) := by
  split
  · exact h
  · exact .refl s

/-! ### The schedule table (R45, R52 to R62, R94, R95) -/

theorem State.freeEntry_portsKept (s : State) (id : EntryId) : PortsKept s (s.freeEntry id) :=
  .of_ports (s.freeEntry_ports id)

theorem State.endEntry_portsKept (s : State) (id : EntryId) (r : EndReason) : PortsKept s (s.endEntry id r) := by
  unfold State.endEntry
  split
  · exact .refl s
  · exact (PortsKept.offer s _ _).trans (State.freeEntry_portsKept _ id)

theorem State.placeAt_portsKept (s : State) (id : EntryId) (e : Entry) (found : Option Civil) :
    PortsKept s (s.placeAt id e found) := by
  cases found with
  | none => exact s.endEntry_portsKept id _
  | some m => exact .of_ports rfl

theorem State.enter_portsKept (s : State) (id : EntryId) (e : Entry) : PortsKept s (s.enter id e) := by
  unfold State.enter
  split
  · exact .of_ports rfl
  · exact .of_ports rfl
  · split
    · exact s.placeAt_portsKept id e _
    · exact .of_ports rfl
  · exact .of_ports rfl

theorem State.create_portsKept (s : State) (p : Port) (a : CreateArgs) : PortsKept s (s.create p a).1 := by
  unfold State.create
  split
  · exact .refl s
  · exact .refl s
  · exact (PortsKept.of_ports (s.allocate_ports _ _)).trans (State.enter_portsKept _ _ _)

theorem State.resume_portsKept (s : State) (id : EntryId) (e : Entry) : PortsKept s (s.resume id e).1 := by
  unfold State.resume
  split
  · exact .of_ports rfl
  · exact .of_ports rfl
  · split
    · exact s.placeAt_portsKept id e _
    · exact .of_ports rfl
  · split <;> exact .of_ports rfl

/-! ### Firings (R71 to R83, R99) -/

theorem State.askLine_portsKept (s : State) (a : Option LineAction) (p : Port) (src : Source) :
    PortsKept s (s.askLine a p src).1 := by
  cases a with
  | none => exact .refl s
  | some a =>
    cases h : s.ownsLine p a.line with
    | false =>
      rw [State.askLine_notOwner src h]
      exact .refl s
    | true =>
      obtain ⟨c, hc, rfl⟩ := (s.ownsLine_iff _ _).1 h
      rw [State.askLine_owner src hc]
      exact .of_ports rfl

theorem State.fire_portsKept (s : State) (id : EntryId) (e : Entry) (intended : Intended) (late ends : Bool) :
    PortsKept s (s.fire id e intended late ends).state := by
  have hasked : PortsKept s (s.askFiring id e).1 :=
    PortsKept.trans (t := s.unlist id) (.of_ports rfl)
      ((s.unlist id).askLine_portsKept e.action e.owner (.entry (s.handleOf id)))
  by_cases h : firedOffered e.notify (s.firingResult id e late) (ends || lastFiring e.remaining) = true
  · rw [State.fire_offered h]
    exact hasked.trans (.offer _ _ _)
  · rw [State.fire_notOffered h]
    exact hasked

/-- A FINAL firing frees its entry; what else becomes of the entry is the kind's to say. -/
theorem Fired.left_portsKept (f : Fired) (id : EntryId) {t : State} (h : PortsKept f.state t) :
    PortsKept f.state (if f.final then f.state.freeEntry id else t) := by
  split
  · exact f.state.freeEntry_portsKept id
  · exact h

theorem State.fireMono_portsKept (s : State) (pos : MonoPos) : PortsKept s (s.fireMono pos) := by
  unfold State.fireMono
  split
  · exact .of_ports rfl
  · split
    · exact (s.fire_portsKept _ _ _ _ _).trans (State.freeEntry_portsKept _ _)
    · exact (s.fire_portsKept _ _ _ _ _).trans (Fired.left_portsKept _ _ (.of_ports rfl))
    · exact .of_ports rfl
    · refine (s.fire_portsKept _ _ _ _ _).trans (Fired.left_portsKept _ _ ?_)
      split
      · exact .of_ports rfl
      · exact State.endEntry_portsKept _ _ _

theorem State.fireCivil_portsKept (s : State) (pos : CivilPos) : PortsKept s (s.fireCivil pos) := by
  unfold State.fireCivil
  split
  · exact .of_ports rfl
  · split
    · exact (s.fire_portsKept _ _ _ _ _).trans (Fired.left_portsKept _ _ (State.placeAt_portsKept _ _ _ _))
    all_goals exact .of_ports rfl

/-! ### PATTERN entries at a change of civil time (R100 to R105) -/

theorem State.passOver_portsKept (s : State) (new : Civil) (pos : CivilPos) : PortsKept s (s.passOver new pos) := by
  unfold State.passOver
  split
  · exact .of_ports rfl
  · split
    · exact (s.fire_portsKept _ _ _ _ _).trans (Fired.left_portsKept _ _ (State.placeAt_portsKept _ _ _ _))
    · exact s.placeAt_portsKept _ _ _
    all_goals exact .of_ports rfl

theorem State.placeBack_portsKept (s : State) (new : Civil) (pos : CivilPos) : PortsKept s (s.placeBack new pos) := by
  unfold State.placeBack
  split
  · exact .of_ports rfl
  · split
    · exact s.placeAt_portsKept _ _ _
    all_goals exact .of_ports rfl

theorem State.stepPatterns_portsKept (s : State) (old new : Civil) : PortsKept s (s.stepPatterns old new) := by
  unfold State.stepPatterns
  split
  · exact .foldl (fun t pos => t.passOver_portsKept new pos) _ s
  · split
    · exact .foldl (fun t pos => t.placeBack_portsKept new pos) _ s
    · exact .refl s

theorem State.wake_portsKept (s : State) (now : Civil) (id : EntryId) : PortsKept s (s.wake now id) := by
  unfold State.wake
  split
  · exact .refl s
  · split
    · exact s.placeAt_portsKept id _ _
    · exact .refl s

theorem State.sleep_portsKept (s : State) (id : EntryId) : PortsKept s (s.sleep id) := by
  unfold State.sleep
  split
  · exact .refl s
  · split <;> exact .of_ports rfl

theorem State.sleepPatterns_portsKept (s : State) : PortsKept s s.sleepPatterns :=
  (PortsKept.foldl State.sleep_portsKept allIds s).trans (.of_ports (State.setLists_ports _ _ _))

/-! ### Civil time, its corrections and the authority (R10 to R37) -/

theorem PortsKept.setCivilTime (s : State) (c : Option Civil) (w : Option Slew) (x : Option PendingStep) :
    PortsKept s (s.setCivilTime c w x) := .of_ports rfl

theorem State.invalidate_portsKept (s : State) (cause : ChangeCause) (p : Option Port) :
    PortsKept s (s.invalidate cause p) :=
  ((PortsKept.setCivilTime s none none none).trans (State.sleepPatterns_portsKept _)).trans (.offerEach _ _)

theorem State.moveCivil_portsKept (s : State) (old new : Civil) (cancelled : Option PendingStep) (reason : ChangeReason)
    (p : Port) (offset : Int) : PortsKept s (s.moveCivil old new cancelled reason p offset) := by
  unfold State.moveCivil
  exact (PortsKept.setCivilTime s (some new) none none).trans ((PortsKept.offerEach _ _).trans
    ((State.stepPatterns_portsKept _ old new).trans (.offerEach _ _)))

theorem State.setCivil_portsKept (s : State) (p : Port) (new : Civil) : PortsKept s (s.setCivil p new) := by
  unfold State.setCivil
  split
  · exact ((PortsKept.setCivilTime s (some new) none none).trans
      (PortsKept.foldl (fun t id => t.wake_portsKept new id) allIds _)).trans (.offerEach _ _)
  · exact s.moveCivil_portsKept _ _ _ _ _ _

theorem State.stepCivil_portsKept (s : State) (p : Port) (offset : Int) (mode : Byte) :
    PortsKept s (s.stepCivil p offset mode).1 := by
  unfold State.stepCivil
  split
  · exact .refl s
  · split
    · exact .refl s
    · exact .refl s
    · split
      · unfold State.stepNow
        split
        · exact s.moveCivil_portsKept _ _ _ _ _ _
        · exact .refl s
      · unfold State.stepAtSecond
        split <;> exact .of_ports rfl

theorem State.cancelStep_portsKept (s : State) : PortsKept s s.cancelStep :=
  (PortsKept.setCivilTime s s.civil s.slew none).trans (.offerEach _ _)

theorem State.slewCivil_portsKept (s : State) (p : Port) (offset : Int) (rate : Nat) :
    PortsKept s (s.slewCivil p offset rate).1 := by
  unfold State.slewCivil
  split
  · split <;> exact .of_ports rfl
  · exact .refl s

theorem State.claimAuthority_portsKept (s : State) (p : Port) (ms : Nat) : PortsKept s (s.claimAuthority p ms).1 := by
  unfold State.claimAuthority
  dsimp only
  split
  · exact .of_ports rfl
  · split <;> exact .of_ports rfl

theorem State.endAuthority_portsKept (s : State) (q : Option Port) : PortsKept s (s.endAuthority q) :=
  (PortsKept.of_ports (s := s) (t := s.dropAuthority) rfl).trans (.offerEach _ _)

theorem State.advanceTime_portsKept (s : State) : PortsKept s s.advanceTime := by
  have htick : PortsKept s s.tick := .of_ports (by rw [State.tick_eq])
  refine htick.trans ?_
  cases hc : s.civil with
  | none =>
    rw [State.advanceTime_unset hc]
    exact .refl _
  | some c =>
    by_cases hy : (c.advance (advanceAmount s.slew)).year ≤ 2199
    · rw [State.advanceTime_valid hc hy]
      dsimp only
      split
      · exact (PortsKept.setCivilTime _ _ _ _).trans (.offerEach _ _)
      · exact .setCivilTime _ _ _ _
    · rw [State.advanceTime_end hc (by omega)]
      exact s.tick.invalidate_portsKept _ _

theorem State.takeAdvance_portsKept (s : State) : PortsKept s s.takeAdvance :=
  s.advanceTime_portsKept.trans (.of_ports rfl)

/-! ### Lines and inputs (R114, R120, R132 to R138) -/

theorem State.claimLine_portsKept (s : State) (p : Port) (l : Line) (idle : Level) :
    PortsKept s (s.claimLine p l idle).1 := by
  unfold State.claimLine
  dsimp only
  split
  · exact .of_ports rfl
  · split <;> exact .of_ports rfl

theorem State.driveLine_portsKept (s : State) (p : Port) (a : LineAction) : PortsKept s (s.driveLine p a).1 := by
  unfold State.driveLine
  split
  · exact s.askLine_portsKept _ _ _
  · exact .refl s

theorem State.claimInput_portsKept (s : State) (p : Port) (i : Input) (mode : EdgeMode) (holdoff : Nat) :
    PortsKept s (s.claimInput p i mode holdoff).1 := by
  unfold State.claimInput
  split
  · exact .of_ports rfl
  · split <;> exact .of_ports rfl

theorem State.releaseInput_portsKept (s : State) (p : Port) (i : Input) : PortsKept s (s.releaseInput p i).1 :=
  (PortsKept.foldl (fun t id => t.endEntry_portsKept id .captureLost) _ s).trans (.of_ports rfl)

theorem State.armByEdge_portsKept (s : State) (id : EntryId) : PortsKept s (s.armByEdge id) := by
  unfold State.armByEdge
  split
  · exact .refl s
  · split <;> exact .of_ports rfl

theorem State.acceptEdge_portsKept (s : State) (i : Input) (c : InputClaim) (pol : Polarity) :
    PortsKept s (s.acceptEdge i c pol) :=
  ((PortsKept.offer s _ _).trans (PortsKept.foldl State.armByEdge_portsKept _ _)).trans (.of_ports rfl)

theorem State.takeEdge_portsKept (s : State) (i : Input) (pol : Polarity) : PortsKept s (s.takeEdge i pol) := by
  unfold State.takeEdge
  split
  · exact .refl s
  · split
    · split
      · exact s.acceptEdge_portsKept i _ pol
      · exact .of_ports rfl
    · exact .refl s

/-! ### Requests (R44, R185, R186) -/

section
variable {run : List Byte → State → State × Reply}

theorem PortsKept.withLength (n : Nat) (h : ∀ args t, PortsKept t (run args t).1) (args : List Byte) (t : State) :
    PortsKept t (Machine.withLength n run args t).1 := by
  by_cases hn : args.length = n
  · rw [withLength_eq hn]
    exact h args t
  · rw [withLength_ne hn]
    exact .refl t

theorem PortsKept.civilChange (p : Port) (n : Nat) (h : ∀ args t, PortsKept t (run args t).1) (args : List Byte)
    (t : State) : PortsKept t (Machine.civilChange p n run args t).1 := by
  refine PortsKept.withLength n (fun args t => ?_) args t
  split
  · exact h args t
  · exact .refl t

theorem PortsKept.withEntry {run : EntryId → Entry → State → State × Reply} (p : Port)
    (h : ∀ id e t, PortsKept t (run id e t).1) (args : List Byte) (t : State) :
    PortsKept t (Machine.withEntry p run args t).1 := by
  refine PortsKept.withLength 2 (fun args t => ?_) args t
  split
  · exact .refl t
  · split
    · exact .refl t
    · split
      · exact .refl t
      · split
        · exact .refl t
        · exact h _ _ t

theorem State.takeRequest_portsOk {s : State} (hs : PortsOk s) (p : Port) : PortsOk (s.takeRequest p) :=
  hs.setPort p (PortState.setLink_ok (hs p) (Link.take_ok (hs p).link) rfl)

/-- R185, R186: an answer is made ready where there is room for it. -/
theorem State.respond_portsOk {s : State} {p : Port} (hs : PortsOk s) (hroom : (s.link p).responses.length < 4)
    (tag code : Byte) (r : Reply) : PortsOk (s.respond p tag code r) := fun q => by
  rw [State.port_respond]
  split
  · exact PortState.setLink_ok (hs p) (Link.respond_ok (hs p).link hroom tag code r) rfl
  · exact hs q

/-- R185: a request that may be taken is answered in the room found for it. -/
theorem State.answered_portsOk {s t : State} {p : Port} {payload : List Byte} (hs : PortsOk s)
    (ht : (s.link p).takable = some payload) (hk : PortsKept (s.takeRequest p) t) (tag code : Byte) (r : Reply) :
    PortsOk (t.respond p tag code r) := by
  have htaken : ((s.takeRequest p).link p).responses = (s.link p).responses := by
    rw [State.takeRequest, State.link_setLink, if_pos rfl]
    rfl
  refine State.respond_portsOk (hk.portsOk (State.takeRequest_portsOk hs p)) ?_ tag code r
  rw [hk.responses p, htaken]
  exact Link.responses_lt_of_takable ht

theorem State.serve_portsOk {s : State} (hs : PortsOk s) (h : ∀ args t, PortsKept t (run args t).1) (p : Port)
    (code : Byte) : PortsOk (s.serve p code run) := by
  rcases s.serve_cases p code run with hsame | ⟨tag, args, ht, hserved⟩
  · rw [hsame]
    exact hs
  · rw [hserved]
    exact State.answered_portsOk hs ht (h args _) tag code _

end

/-! ### The port's own events -/

/-- R158, R159, R174, R191: the reset port starts anew, every other port is offered records. -/
theorem State.resetPort_portsOk {s : State} (hs : PortsOk s) (p : Port) (brk : Bool) : PortsOk (s.resetPort p brk) :=
  fun q => by
    rw [State.port_resetPort]
    refine PortState.offerList_ok ?_ _
    split
    · exact PortState.afterPortReset_ok _ brk
    · exact hs q

/-- R167, R170: an ack timer that runs expires. -/
theorem State.ackExpired_portsOk {s : State} (hs : PortsOk s) {p : Port} (ha : (s.port p).engine.ackEnd ≠ none) :
    PortsOk (s.ackExpired p) := by
  have hengine := (hs p).engine
  obtain ⟨-, -, hframe, -, -⟩ := hengine.ackEnd_some ha
  have hoff : (s.port p).engine.frame ≠ .onWire := by simp [hframe]
  unfold State.ackExpired
  dsimp only
  split
  · split
    · exact hs.setPort p (PortState.setEngine_ok (hs p) (Engine.stall_ok hengine ha _) hoff hoff)
    · exact State.resetPort_portsOk hs p false
  · next hlimit =>
    exact hs.setPort p
      (PortState.setEngine_ok (hs p) (Engine.backOff_ok hengine ha (Nat.le_of_not_lt hlimit) _) hoff hoff)

/-- R168. -/
theorem State.retransmit_portsOk {s : State} (hs : PortsOk s) {p : Port} (hb : (s.port p).engine.backoffEnd ≠ none) :
    PortsOk (s.setPort p { s.port p with engine := (s.port p).engine.retransmit }) := by
  obtain ⟨-, -, hframe, -, -⟩ := (hs p).engine.backoffEnd_some hb
  exact hs.setPort p (PortState.setEngine_ok (hs p) (Engine.retransmit_ok (hs p).engine hb) (by simp [hframe])
    (by simp [Engine.retransmit]))

/-- Table 9-3: a configuration is decoded only in its ranges. -/
theorem decodeConfig_ok {args : List Byte} {c : DeliveryConfig × Bool × Bool} (h : decodeConfig args = some c) :
    c.1.ok := by
  have htimeout : fieldAt args 0 1 < 256 := fieldAt_lt args 0 1
  unfold decodeConfig at h
  dsimp only at h
  split at h
  · split at h
    · next hranges =>
      simp only [Bool.and_eq_true, decide_eq_true_eq] at hranges
      obtain ⟨⟨⟨hlow, hlimit⟩, hcap⟩, -⟩ := hranges
      obtain rfl := Option.some.inj h
      exact ⟨hlow, Nat.le_of_lt_succ htimeout, hlimit, hcap⟩
    · cases h
  · cases h

end Sys2Proof.Machine
end

section
/-! SUPPORT. What every command makes of the ports: a request is answered, an event of another unit offers records, and an
event of a port keeps queue, engine, arbiter and receiver in agreement (R146, R152, R162, R163, R164, R180, R183, R185).
-/

namespace Sys2Proof.Machine

/-! ### Requests -/

/-- R189: the cleared frame-fault record. -/
theorem State.clearFaults_portsKept (s : State) (p : Port) :
    PortsKept s (s.setLink p { s.link p with faults := FaultRecord.clear }) := by
  refine .setPort s p (fun h => ?_) rfl
  obtain ⟨hw, hrx, hfifo, hresponses, -⟩ := h.link
  exact PortState.setLink_ok h ⟨hw, hrx, hfifo, hresponses, Nat.zero_le _, iff_of_true rfl rfl⟩ rfl

theorem exec_request_portsOk {c : Instr} {s t : State} (hc : requestOf c ≠ none) (hr : s.rstN = true) (hs : PortsOk s)
    (h : exec c s = .next t) : PortsOk t := by
  have served : ∀ {p : Port} {code : Byte} {run : List Byte → State → State × Reply},
      exec c s = .next (s.serve p code run) → (∀ args t, PortsKept t (run args t).1) → PortsOk t := fun hu hk =>
    of_exec_eq h hu (State.serve_portsOk hs hk _ _)
  have answers : ∀ (f : State → Reply) (args : List Byte) (t : State), PortsKept t (t, f t).1 := fun _ _ => .refl
  cases c with
  | readTime p => exact served (execReadTime_released p hr) (.withLength 0 (answers _))
  | listEntries p => exact served (execListEntries_released p hr) (.withLength 0 (answers _))
  | getPortStatus p => exact served (execGetPortStatus_released p hr) (.withLength 0 (answers _))
  | getInfo p => exact served (execGetInfo_released p hr) (.withLength 0 (answers _))
  | portReset p => exact served (execPortReset_released p hr) (.withLength 0 (answers _))
  | queryEntry p => exact served (execQueryEntry_released p hr) (.withEntry p fun _ _ => .refl)
  | clearFaults p =>
    exact served (execClearFaults_released p hr) (.withLength 0 fun _ t => t.clearFaults_portsKept p)
  | claimAuthority p =>
    refine served (execClaimAuthority_released p hr) (.withLength 4 fun args t => ?_)
    dsimp only
    split
    · exact t.claimAuthority_portsKept p _
    · exact .refl t
  | releaseAuthority p =>
    refine served (execReleaseAuthority_released p hr) (.withLength 0 fun _ t => ?_)
    split
    · exact t.endAuthority_portsKept none
    · exact .refl t
  | setCivil p =>
    refine served (execSetCivil_released p hr) (.civilChange p 12 fun args t => ?_)
    split
    · exact .refl t
    · exact t.setCivil_portsKept p _
  | stepCivil p => exact served (execStepCivil_released p hr) (.civilChange p 9 fun _ t => t.stepCivil_portsKept p _ _)
  | cancelStep p =>
    refine served (execCancelStep_released p hr) (.civilChange p 0 fun _ t => ?_)
    split
    · exact .refl t
    · exact t.cancelStep_portsKept
  | slewCivil p => exact served (execSlewCivil_released p hr) (.civilChange p 6 fun _ t => t.slewCivil_portsKept p _ _)
  | invalidateCivil p =>
    refine served (execInvalidateCivil_released p hr) (.civilChange p 0 fun _ t => ?_)
    split
    · exact .refl t
    · exact t.invalidate_portsKept _ _
  | createEntry p =>
    refine served (execCreateEntry_released p hr) fun args t => ?_
    split
    · exact .refl t
    · exact t.create_portsKept p _
  | cancelEntry p => exact served (execCancelEntry_released p hr) (.withEntry p fun id _ t => t.freeEntry_portsKept id)
  | suspendEntry p =>
    refine served (execSuspendEntry_released p hr) (.withEntry p fun id e t => ?_)
    split <;> exact .of_ports rfl
  | resumeEntry p =>
    refine served (execResumeEntry_released p hr) (.withEntry p fun id e t => ?_)
    split
    · exact t.resume_portsKept id e
    · exact .refl t
  | claimLine p =>
    refine served (execClaimLine_released p hr) (.withLength 2 fun args t => ?_)
    split
    · exact t.claimLine_portsKept p _ _
    · exact .refl t
  | releaseLine p =>
    refine served (execReleaseLine_released p hr) (.withLength 1 fun args t => ?_)
    split
    · split <;> exact .of_ports rfl
    · exact .refl t
  | driveLine p =>
    refine served (execDriveLine_released p hr) (.withLength 6 fun args t => ?_)
    split
    · exact t.driveLine_portsKept p _
    · exact .refl t
  | claimInput p =>
    refine served (execClaimInput_released p hr) (.withLength 4 fun args t => ?_)
    split
    · exact t.claimInput_portsKept p _ _ _
    · exact .refl t
  | releaseInput p =>
    refine served (execReleaseInput_released p hr) (.withLength 1 fun args t => ?_)
    split
    · split
      · exact t.releaseInput_portsKept p _
      · exact .refl t
    · exact .refl t
  | setPortConfig p =>
    refine served (execSetPortConfig_released p hr) (.withLength 5 fun args t => ?_)
    split
    · next hconfig => exact .setPort t p (fun h => PortState.configure_ok h (decodeConfig_ok hconfig)) rfl
    · exact .refl t
  | _ => exact absurd rfl hc

/-! ### Events of the other units -/

/-- The events of a port's engine, arbiter, receiver and FIFO. -/
def portEvent : Instr → Bool
  | .transmitStart _ | .noteTransmissionEnd _ | .responseTransmissionEnd _ => true
  | .ackFrame _ | .ackTimeout _ | .backoffExpiry _ => true
  | .frameComplete _ _ | .lengthFault _ _ | .characterReceived _ _ _ => true
  | .gapExpiry _ | .breakSeen _ | .receiveLineAtMark _ | .unknownRequest _ => true
  | _ => false

theorem exec_otherEvent_portsKept {c : Instr} {s t : State} (hc : requestOf c = none) (hp : portEvent c = false)
    (hd : c ≠ .deviceReset) (hr : s.rstN = true) (h : exec c s = .next t) : PortsKept s t := by
  have key : ∀ u : State, exec c s = .next u → PortsKept s u → PortsKept s t := fun u => of_exec_eq h
  have reached : ∀ r : Reached, PortsKept s (s.setReached r) := fun _ => .of_ports rfl
  cases c with
  | deviceReset => exact absurd rfl hd
  | resetRelease r1 r0 c0 c1 c2 c3 =>
    refine key _ (exec_resetRelease s r1 r0 c0 c1 c2 c3) ?_
    rw [if_pos hr]
    exact .refl s
  | runTimeAdvance => exact key _ (execRunTimeAdvance_released hr) (.ite s.takeAdvance_portsKept _)
  | adjustedAdvance => exact key _ (execAdjustedAdvance_released hr) (.ite s.takeAdvance_portsKept _)
  | calendarEnd => exact key _ (execCalendarEnd_released hr) (.ite s.takeAdvance_portsKept _)
  | secondBoundary =>
    refine key _ (execSecondBoundary_released hr) ?_
    split
    · split
      · exact s.moveCivil_portsKept _ _ _ _ _ _
      · exact .refl s
    · exact .refl s
  | leaseExpiry =>
    refine key _ (execLeaseExpiry_released hr) ?_
    split
    · exact .refl s
    · exact .ite (s.endAuthority_portsKept _) _
  | monoFiring =>
    refine key _ (execMonoFiring_released hr) ?_
    split
    · exact .refl s
    · exact .ite ((reached _).trans (State.fireMono_portsKept _ _)) _
  | civilFiring =>
    refine key _ (execCivilFiring_released hr) ?_
    split
    · exact .ite ((reached _).trans (State.fireCivil_portsKept _ _)) _
    · exact .refl s
  | pulseEnd l =>
    refine key _ (execPulseEnd_released l hr) ?_
    split
    · split <;> exact .of_ports rfl
    · exact .refl s
  | captureEdge i level =>
    refine key _ (execCaptureEdge_released i level hr) ?_
    split
    · exact .of_ports rfl
    · split
      · exact .refl s
      · exact PortsKept.trans (t := s.setInput i _) (.of_ports rfl) (State.takeEdge_portsKept _ i _)
  | holdoffExpiry i =>
    refine key _ (execHoldoffExpiry_released i hr) ?_
    split
    · exact .refl s
    · split
      · exact .refl s
      · split <;> exact .of_ports rfl
  | transmitStart | noteTransmissionEnd | responseTransmissionEnd | ackFrame | ackTimeout | backoffExpiry => cases hp
  | frameComplete | lengthFault | characterReceived | gapExpiry | breakSeen | receiveLineAtMark => cases hp
  | unknownRequest => cases hp
  | _ => cases hc

/-! ### Events of a port -/

/-- A change that is made only under a condition. -/
theorem PortsOk.ite {s t : State} (hs : PortsOk s) (ht : PortsOk t) (c : Prop) [Decidable c] :
    PortsOk (if c then t else s) := by
  split
  · exact ht
  · exact hs

/-- R165, R166: the engine takes an ACK frame handed to it. -/
theorem State.takeAck_portsOk {s : State} (hs : PortsOk s) (p : Port) (payload : List Byte) :
    PortsOk (s.setPort p
      (if (s.port p).ackMatches payload then (s.port p).acceptAck else (s.port p).refuseAck s.runTime)) := by
  refine hs.setPort p ?_
  split
  · exact PortState.acceptAck_ok (hs p)
  · exact PortState.refuseAck_ok (hs p) _

theorem exec_portEvent_portsOk {c : Instr} {s t : State} (hp : portEvent c = true) (hr : s.rstN = true) (hs : PortsOk s)
    (h : exec c s = .next t) : PortsOk t := by
  have key : ∀ u : State, exec c s = .next u → PortsOk u → PortsOk t := fun u => of_exec_eq h
  have received : ∀ (p : Port) (b : Byte), PortsOk (s.setPort p ((s.port p).receive b s.runTime)) := fun p b =>
    hs.setPort p (PortState.receive_ok (hs p) b _)
  have linked : ∀ (p : Port) {l : Link}, l.ok → l.tx = (s.link p).tx → PortsOk (s.setLink p l) := fun p l hl htx =>
    hs.setPort p (PortState.setLink_ok (hs p) hl htx)
  cases c with
  | transmitStart p => exact key _ (execTransmitStart_released p hr) (hs.setPort p (PortState.startFrame_ok (hs p)))
  | noteTransmissionEnd p =>
    exact key _ (execNoteTransmissionEnd_released p hr) (hs.setPort p (PortState.noteEnded_ok (hs p) _))
  | responseTransmissionEnd p =>
    have freed : TxFrame.isLiveNote (s.link p).tx = false → PortsOk (s.setLink p { s.link p with tx := none }) :=
      fun hl => hs.setPort p (PortState.freeLine_ok (hs p) hl)
    refine key _ (execResponseTransmissionEnd_released p hr) ?_
    split
    · next htx =>
      have hfree := freed (by simp [htx, TxFrame.isLiveNote])
      dsimp only
      split
      · exact State.resetPort_portsOk hfree p false
      · exact hfree
    · next htx => exact freed (by simp [htx, TxFrame.isLiveNote])
    all_goals exact hs
  | ackFrame p =>
    refine key _ (execAckFrame_released p hr) ?_
    split
    · exact hs
    · next rest _ => exact State.takeAck_portsOk (linked p (l := { s.link p with acks := rest }) (hs p).link rfl) p _
  | ackTimeout p =>
    refine key _ (execAckTimeout_released p hr) ?_
    split
    · exact hs
    · next hend => exact hs.ite (State.ackExpired_portsOk hs (by simp [hend])) _
  | backoffExpiry p =>
    refine key _ (execBackoffExpiry_released p hr) ?_
    split
    · exact hs
    · next hend => exact hs.ite (State.retransmit_portsOk hs (by simp [hend])) _
  | frameComplete p b => exact key _ (execFrameComplete_released p b hr) (hs.ite (received p b) _)
  | lengthFault p b => exact key _ (execLengthFault_released p b hr) (hs.ite (received p b) _)
  | characterReceived p b moment =>
    refine key _ (execCharacterReceived_released p b moment hr) ?_
    split
    · refine linked p (Link.startBit_ok (hs p).link _) ?_
      unfold Link.startBit
      split <;> rfl
    · exact received p b
    · refine linked p (Link.endAtSpace_ok (hs p).link b _ _) ?_
      unfold Link.endAtSpace
      split
      · rfl
      · split <;> rfl
  | gapExpiry p =>
    exact key _ (execGapExpiry_released p hr) (hs.ite (linked p (Link.fault_ok (hs p).link (by decide)) rfl) _)
  | breakSeen p => exact key _ (execBreakSeen_released p hr) (hs.ite (State.resetPort_portsOk hs p true) _)
  | receiveLineAtMark p =>
    exact key _ (execReceiveLineAtMark_released p hr) (linked p (Link.atMark_ok (hs p).link) rfl)
  | unknownRequest p =>
    refine key _ (execUnknownRequest_released p hr) ?_
    split
    · exact hs
    · next ht => exact State.answered_portsOk hs ht (.refl _) _ _ _
    · next ht => exact State.answered_portsOk hs ht (.refl _) _ _ _
    · next ht =>
      split
      · exact hs
      · exact State.answered_portsOk hs ht (.refl _) _ _ _
  | _ => cases hp

/-! ### Every step -/

/-- R145, R162, R193: the device-reset values, whatever the counter of free values and the queue of commands hold. -/
theorem State.deviceReset_portsOk (s : State) :
    PortsOk { State.reset with freeCount := s.freeCount, pending := s.pending } := by
  obtain ⟨-, -, -, -, hports, -⟩ := invariantsAtReset
  exact hports

/-- While RST_N is low no command but DEVICE_RESET reaches the ports. -/
theorem exec_low_portsOk {c : Instr} {s t : State} (hr : s.rstN = false) (hd : c ≠ .deviceReset) (hs : PortsOk s)
    (h : exec c s = .next t) : PortsOk t := by
  have key : ∀ u : State, exec c s = .next u → PortsOk u → PortsOk t := fun u => of_exec_eq h
  cases c with
  | resetRelease r1 r0 c0 c1 c2 c3 =>
    refine key _ (exec_resetRelease s r1 r0 c0 c1 c2 c3) ?_
    rw [hr]
    exact hs
  | _ => exact key s (exec_of_low hr hd (by simp)) hs

theorem exec_portsOk {c : Instr} {s t : State} (hs : PortsOk s) (h : exec c s = .next t) : PortsOk t := by
  by_cases hd : c = .deviceReset
  · subst hd
    exact of_exec_eq h (exec_deviceReset s) s.deviceReset_portsOk
  · cases hr : s.rstN with
    | false => exact exec_low_portsOk hr hd hs h
    | true =>
      by_cases hc : requestOf c = none
      · cases hp : portEvent c with
        | true => exact exec_portEvent_portsOk hp hr hs h
        | false => exact (exec_otherEvent_portsKept hc hp hd hr h).portsOk hs
      · exact exec_request_portsOk hc hr hs h

/-- Settles O59: a request is answered where there is room (`exec_request_portsOk`), an event of a port keeps its blocks in
agreement (`exec_portEvent_portsOk`), every other event only offers records (`exec_otherEvent_portsKept`), and the two of
RST_N start from the reset values or leave the ports. -/
theorem portsInvariant : Obligations.PortsInvariant :=
  step_keeps (fun _ _ hs => hs) (fun _ hs _ => hs) (fun _ _ _ hs h => exec_portsOk hs h)

end Sys2Proof.Machine
end

section
/-! SUPPORT. The ACK frame at its engine, and the requests of a port's own link: SET_PORT_CONFIG, GET_PORT_STATUS and
PORT_RESET (R154, R161, R165, R166, R169, R171, R175, R177, R188, R190).
-/

namespace Sys2Proof.Machine

/-! ### ACK frames (R154, R165, R166, R169, R175) -/

/-- The port with the oldest ACK frame gone from those handed to its engine. -/
def PortState.withAcks (ps : PortState) (later : List (List Byte)) : PortState :=
  { ps with link := { ps.link with acks := later } }

/-- The oldest ACK frame is accepted or refused by the port that has let it go. -/
theorem exec_ackFrame {s : State} {p : Port} {payload : List Byte} {later : List (List Byte)} (hr : s.rstN = true)
    (ha : (s.link p).acks = payload :: later) :
    exec (.ackFrame p) s = .next (s.setPort p
      (if (s.port p).ackMatches payload then ((s.port p).withAcks later).acceptAck
       else ((s.port p).withAcks later).refuseAck s.runTime)) := by
  have hport : (s.setLink p { s.link p with acks := later }).port p = (s.port p).withAcks later := by
    rw [State.port_setLink, if_pos rfl]
    rfl
  rw [execAckFrame_released p hr, ha]
  dsimp only
  rw [hport, State.setLink, State.setPort_setPort]
  rfl

/-- R165: what an ACK payload must name. -/
theorem PortState.ackMatches_cons {ps : PortState} {q : Queued} {rest : List Queued} (hq : ps.queue.records = q :: rest)
    (payload : List Byte) :
    ps.ackMatches payload = true ↔
      ps.engine.state ≠ .idle ∧ payload = ps.queue.epoch :: toBytes 2 q.seq.toNat := by
  simp [PortState.ackMatches, hq]

/-- R166: what makes an ACK stale. -/
theorem PortState.not_ackMatches {ps : PortState} {payload : List Byte}
    (h : ps.engine.state = .idle ∨ ps.queue.records = [] ∨
      ∃ q rest, ps.queue.records = q :: rest ∧ payload ≠ ps.queue.epoch :: toBytes 2 q.seq.toNat) :
    ¬ps.ackMatches payload = true := by
  rcases h with hidle | hempty | ⟨q, rest, hq, hne⟩
  · simp [PortState.ackMatches, hidle]
  · simp [PortState.ackMatches, hempty]
  · exact fun hm => hne ((PortState.ackMatches_cons hq payload).1 hm).2

theorem Engine.acked_isEmpty (e : Engine) (rest : List Queued) :
    e.acked (!rest.isEmpty) =
      { e with
        state := if rest = [] then .idle else .awaitAck
        stalledAt := none
        attempts := 0
        frame := if rest = [] then .absent else .queued
        ackEnd := none, backoffEnd := none, delivered := e.delivered + 1 } := by
  cases rest <;> rfl

/-- R165 step 3: only a NOTE frame on the line changes. -/
theorem TxFrame.map_disownNote (tx : Option TxFrame) :
    tx.map TxFrame.disownNote = match tx with
      | some (.note bytes _) => some (.note bytes false)
      | other => other := by
  rcases tx with _ | (_ | _ | _) <;> rfl

/-- Settles O45: an ACK that matches is `PortState.acceptAck`, any other `Engine.staleAck`, by whether the engine is STALLED
and since when. -/
theorem ackFrame : Obligations.AckFrame := by
  intro s p payload later hr ha ps link
  have hexec := exec_ackFrame hr ha
  refine ⟨fun q rest hq hs hpayload => ?_, fun hstale => ?_⟩
  · have hrecords : (s.port p).queue.records.drop 1 = rest := congrArg (List.drop 1) hq
    rw [hexec, if_pos ((PortState.ackMatches_cons hq payload).2 ⟨hs, hpayload⟩)]
    simp only [PortState.acceptAck, PortState.withAcks, hrecords, Engine.acked_isEmpty, TxFrame.map_disownNote]
    rfl
  · rw [if_neg (PortState.not_ackMatches hstale)] at hexec
    refine ⟨fun hcounted => ?_, fun hs hat => ?_⟩
    · have hengine : ps.engine.staleAck s.runTime = { ps.engine with staleAcks := ps.engine.staleAcks + 1 } :=
        hcounted.elim Engine.staleAck_other Engine.staleAck_met
      rw [hexec, ← hengine]
      rfl
    · have hengine := Engine.staleAck_stalled hs hat
      rw [hexec]
      exact congrArg (fun e => Host.Outcome.next (s.setPort p { ps with link := link, engine := e })) hengine

/-! ### SET_PORT_CONFIG (R148, R171) -/

/-- The ranges of the five items of SET_PORT_CONFIG (Tables 9-3 and 10-9). -/
def configInRange (timeout limit cap stall mask : Byte) : Prop :=
  timeout ≠ 0 ∧ limit.toNat ≤ 15 ∧ cap.toNat ≤ 7 ∧ stall.toNat ≤ 1 ∧ mask.toNat ≤ 3

theorem decodeConfig_of_inRange {timeout limit cap stall mask : Byte}
    (h : configInRange timeout limit cap stall mask) :
    decodeConfig [timeout, limit, cap, stall, mask] =
      some ({ ackTimeout := timeout.toNat, retryLimit := limit.toNat, backoffCap := cap.toNat
              stall := if stall = 0 then .keep else .release }, mask.getLsbD 0, mask.getLsbD 1) := by
  obtain ⟨htimeout, hlimit, hcap, hstall, hmask⟩ := h
  have hpositive : 1 ≤ timeout.toNat := by bv_omega
  simp [decodeConfig, fieldAt_one, decodeStall_eq, hpositive, hlimit, hcap, hstall, Nat.lt_succ_of_le hmask]

theorem decodeConfig_of_outOfRange {timeout limit cap stall mask : Byte}
    (h : ¬configInRange timeout limit cap stall mask) : decodeConfig [timeout, limit, cap, stall, mask] = none := by
  by_cases hstall : stall.toNat ≤ 1
  · simp only [decodeConfig, show byteAt [timeout, limit, cap, stall, mask] 3 = stall from rfl, decodeStall_eq,
      if_pos hstall]
    refine if_neg fun hranges => h ?_
    simp only [Bool.and_eq_true, decide_eq_true_eq, fieldAt_cons, fieldAt_one] at hranges
    obtain ⟨⟨⟨htimeout, hlimit⟩, hcap⟩, hmask⟩ := hranges
    exact ⟨fun h0 => by simp [h0] at htimeout, hlimit, hcap, hstall, Nat.le_of_lt_succ hmask⟩
  · simp only [decodeConfig, byteAt_cons, byteAt_zero, decodeStall_eq, if_neg hstall]

/-- Settles O47: the five bytes are decoded exactly in their ranges, and what is decoded is `PortState.configure`. -/
theorem setPortConfig : Obligations.SetPortConfig := by
  intro s p tag timeout limit cap stall mask h t
  have hexec := execSetPortConfig_released p h.1
  rw [State.serve_withLength h (n := 5) rfl] at hexec
  refine ⟨fun hout => ?_, fun htimeout hlimit hcap hstall hmask => ?_⟩
  · have hrange : ¬configInRange timeout limit cap stall mask := by
      rintro ⟨htimeout, hlimit, hcap, hstall, hmask⟩
      rcases hout with h0 | h0 | h0 | h0 | h0
      · exact htimeout h0
      all_goals omega
    simp only [decodeConfig_of_outOfRange hrange] at hexec
    exact hexec
  · simp only [decodeConfig_of_inRange ⟨htimeout, hlimit, hcap, hstall, hmask⟩] at hexec
    rw [hexec, PortState.configure, State.takeRequest_engine, State.takeRequest_queue]

/-! ### GET_PORT_STATUS and PORT_RESET (R161, R177, R188, R190) -/

/-- R183: the MULTIPLE mark as a byte. -/
theorem flagByte_multiple (f : FaultRecord) : flagByte [f.multiple] = if 2 ≤ f.count then 1 else 0 := by
  by_cases h : 2 ≤ f.count <;> simp [FaultRecord.multiple, flagByte, h]

/-- R190: a PORT_RESET answered is a reset awaited. -/
theorem Link.resetAwaited_respond (l : Link) (tag code : Byte) {r : Reply} (hr : r.resets = true) :
    (l.respond tag code r).resetAwaited = true := by
  simp [Link.resetAwaited, Link.respond, hr]

/-- Settles O52: the status is read off the port with the request taken; the answer of PORT_RESET is the one that
`Link.resetAwaited` looks for. -/
theorem getPortStatusAndPortReset : Obligations.GetPortStatusAndPortReset := by
  refine ⟨?_, ?_⟩
  · intro s p tag h q e l
    have hport : (s.takeRequest p).port p = { s.port p with link := l.take } := by
      rw [State.port_takeRequest, if_pos rfl]
    rw [execGetPortStatus_released p h.1, State.serve_withLength h (n := 0) rfl, hport]
    unfold PortState.statusBytes
    dsimp only [Link.take]
    simp only [flagByte_multiple, List.length_drop, List.append_assoc, List.cons_append, List.nil_append]
    rfl
  · intro s p tag h
    refine ⟨_, rfl, ?_, ?_⟩
    · rw [execPortReset_released p h.1, State.serve_withLength h (n := 0) rfl, State.takeRequest_queue]
    · rw [State.respond, State.link_setLink, if_pos rfl]
      exact Link.resetAwaited_respond _ _ _ rfl

end Sys2Proof.Machine
end

section
/-! SUPPORT. The transmit arbiter, the two timers of a Delivery Engine, and the end of a frame at the receiver (R162, R164,
R167 to R170, R172, R173, R182, R183, R190, R192).
-/

namespace Sys2Proof.Machine

/-! ### The arbiter (R164, R172) -/

section Arbiter

variable {ps : PortState}

theorem PortState.startFrame_busy (htx : ps.link.tx ≠ none) : ps.startFrame = ps := by
  obtain ⟨f, hf⟩ := Option.ne_none_iff_exists'.1 htx
  simp only [PortState.startFrame, hf]

/-- R172: the oldest pending response goes first. -/
theorem PortState.startFrame_response {r : Response} {rest : List Response} (htx : ps.link.tx = none)
    (hr : ps.link.responses = r :: rest) :
    ps.startFrame =
      { ps with link := { ps.link with
          responses := rest, tx := some (.response (responseFrame r.payload) r.resets) } } := by
  simp only [PortState.startFrame, htx, hr]

/-- R164: with no response pending, the head's frame that the engine has handed. -/
theorem PortState.startFrame_note {q : Queued} {rest : List Queued} (htx : ps.link.tx = none)
    (hr : ps.link.responses = []) (hf : ps.engine.frame = .queued) (hq : ps.queue.records = q :: rest) :
    ps.startFrame =
      { ps with
        engine := { ps.engine with frame := .onWire }
        link := { ps.link with tx := some (.note (noteFrame ps.queue.epoch q) true) } } := by
  simp only [PortState.startFrame, htx, hr, hf, hq]

theorem PortState.startFrame_nothing (htx : ps.link.tx = none) (hr : ps.link.responses = [])
    (hf : ps.engine.frame ≠ .queued) : ps.startFrame = ps := by
  cases hframe : ps.engine.frame with
  | queued => exact absurd hframe hf
  | onWire | absent => simp only [PortState.startFrame, htx, hr, hframe]

/-! ### The end of a transmission (R164, R172, R173, R190, R192) -/

/-- The port once the frame on its line has ended. -/
def PortState.freed (ps : PortState) : PortState := { ps with link := { ps.link with tx := none } }

/-- R164: the ack timer starts at the end of the engine's own frame. -/
theorem PortState.noteEnded_live {bytes : List Byte} (now : Nat) (htx : ps.link.tx = some (.note bytes true))
    (hs : ps.engine.state = .awaitAck ∨ ps.engine.state = .backoff) :
    ps.noteEnded now =
      { ps.freed with engine := { ps.engine with
          state := .awaitAck, frame := .absent
          ackEnd := some (endInstant now (ps.engine.config.ackTimeout * 1000)) } } := by
  simp only [PortState.noteEnded, htx, if_true, Engine.sent, if_pos hs]
  rfl

/-- R165, R192: a frame that is the engine's no longer. -/
theorem PortState.noteEnded_disowned {bytes : List Byte} (now : Nat) (htx : ps.link.tx = some (.note bytes false)) :
    ps.noteEnded now = ps.freed := by
  simp only [PortState.noteEnded, htx]
  rfl

/-- R173: a frame that a break has cut. -/
theorem PortState.noteEnded_cut {bytes : List Byte} (now : Nat) (htx : ps.link.tx = some (.cut bytes true)) :
    ps.noteEnded now = ps.freed := by
  simp only [PortState.noteEnded, htx]
  rfl

end Arbiter

/-- R172, R190: the line is free again, and a PORT_RESET takes effect at the end of its response. -/
theorem exec_responseTransmissionEnd {s : State} {p : Port} {bytes : List Byte} {resets : Bool} (hr : s.rstN = true)
    (htx : (s.link p).tx = some (.response bytes resets)) :
    exec (.responseTransmissionEnd p) s = .next
      (if resets then (s.setPort p (s.port p).freed).resetPort p false else s.setPort p (s.port p).freed) := by
  rw [execResponseTransmissionEnd_released p hr, htx]
  rfl

theorem exec_responseTransmissionEnd_cut {s : State} {p : Port} {bytes : List Byte} (hr : s.rstN = true)
    (htx : (s.link p).tx = some (.cut bytes false)) :
    exec (.responseTransmissionEnd p) s = .next (s.setPort p (s.port p).freed) := by
  rw [execResponseTransmissionEnd_released p hr, htx]
  rfl

/-- Settles O44: the arbiter by what is pending, the end of a transmission by the frame on the line; kind by kind the NOTE
frame's payload is the fields of Table 10-14 joined in another grouping. -/
theorem transmitArbiter : Obligations.TransmitArbiter := by
  refine ⟨?_, ?_⟩
  · intro s p hr ps civil kindAndPart
    have hlayout : ∀ q : Queued,
        notePayload ps.queue.epoch q =
          ps.queue.epoch :: (toBytes 2 q.seq.toNat ++ kindAndPart q.lostBefore q.record) := by
      rintro ⟨seq, lost, r⟩
      cases r with
      | fired | entryEnded | capture | authority | timeChange | peerReset =>
        simp only [notePayload, Record.kindCode, Record.partBytes, FiredRecord.bytes, EndedRecord.bytes,
          CaptureRecord.bytes, AuthorityRecord.bytes, ChangeRecord.bytes, PeerResetRecord.bytes, kindAndPart,
          List.append_assoc]
        rfl
    have hexec := execTransmitStart_released p hr
    refine ⟨fun htx => ?_, fun r rest htx hresponses => ?_, fun q rest htx hresponses hframe hq => ?_,
      fun htx hresponses hframe => ?_⟩
    · rw [hexec, PortState.startFrame_busy htx, State.setPort_port]
    · rw [hexec, PortState.startFrame_response htx hresponses]
      rfl
    · rw [hexec, PortState.startFrame_note htx hresponses hframe hq, noteFrame, hlayout]
    · rw [hexec, PortState.startFrame_nothing htx hresponses hframe, State.setPort_port]
  · intro s p hr ps free
    have hexec := execNoteTransmissionEnd_released p hr
    refine ⟨fun bytes htx hs => ?_, fun bytes htx => ?_, fun bytes htx => ?_, fun bytes htx => ?_, fun bytes htx => ?_,
      fun bytes htx => ?_⟩
    · rw [hexec, PortState.noteEnded_live _ htx hs]
      rfl
    · rw [hexec, PortState.noteEnded_disowned _ htx]
      rfl
    · exact exec_responseTransmissionEnd hr htx
    · exact exec_responseTransmissionEnd hr htx
    · rw [hexec, PortState.noteEnded_cut _ htx]
      rfl
    · exact exec_responseTransmissionEnd_cut hr htx

/-! ### The timers of a Delivery Engine (R167, R168, R170) -/

section Timers

variable {s : State} {p : Port} {t : Nat}

theorem exec_ackTimeout_early (hr : s.rstN = true) (he : (s.port p).engine.ackEnd = some t) (ht : s.runTime < t) :
    exec (.ackTimeout p) s = .next s := by
  rw [execAckTimeout_released p hr, he]
  exact congrArg _ (if_neg (Nat.not_le.2 ht))

theorem exec_ackTimeout_due (hr : s.rstN = true) (he : (s.port p).engine.ackEnd = some t) (ht : t ≤ s.runTime) :
    exec (.ackTimeout p) s = .next (s.ackExpired p) := by
  rw [execAckTimeout_released p hr, he]
  exact congrArg _ (if_pos ht)

theorem exec_backoffExpiry_early (hr : s.rstN = true) (he : (s.port p).engine.backoffEnd = some t)
    (ht : s.runTime < t) : exec (.backoffExpiry p) s = .next s := by
  rw [execBackoffExpiry_released p hr, he]
  exact congrArg _ (if_neg (Nat.not_le.2 ht))

theorem exec_backoffExpiry_due (hr : s.rstN = true) (he : (s.port p).engine.backoffEnd = some t)
    (ht : t ≤ s.runTime) :
    exec (.backoffExpiry p) s = .next (s.setPort p { s.port p with engine := (s.port p).engine.retransmit }) := by
  rw [execBackoffExpiry_released p hr, he]
  exact congrArg _ (if_pos ht)

/-- R167: within the retry limit the engine backs off. -/
theorem State.ackExpired_within
    (hl : (s.port p).engine.attempts + 1 ≤ (s.port p).engine.config.retryLimit) :
    s.ackExpired p =
      s.setPort p { s.port p with
        engine := (s.port p).engine.backOff s.runTime ((s.port p).engine.attempts + 1) } :=
  if_neg (Nat.not_lt.2 hl)

/-- R167: beyond the retry limit, under KEEP. -/
theorem State.ackExpired_keep
    (hl : (s.port p).engine.config.retryLimit < (s.port p).engine.attempts + 1)
    (hk : (s.port p).engine.config.stall = .keep) :
    s.ackExpired p =
      s.setPort p { s.port p with engine := { (s.port p).engine with
        state := .stalled, stalledAt := some s.runTime, attempts := (s.port p).engine.attempts + 1, ackEnd := none } } := by
  simp only [State.ackExpired, if_pos hl, hk]

/-- R167, R170: beyond the retry limit, under RELEASE. -/
theorem State.ackExpired_release
    (hl : (s.port p).engine.config.retryLimit < (s.port p).engine.attempts + 1)
    (hk : (s.port p).engine.config.stall = .release) : s.ackExpired p = s.resetPort p false := by
  simp only [State.ackExpired, if_pos hl, hk]

end Timers

/-- Settles O46: each timer before its instant and from it on, the ack timeout by retry limit and stall action. -/
theorem deliveryTimers : Obligations.DeliveryTimers := by
  intro s p t hr ps e
  refine ⟨exec_ackTimeout_early hr, fun he ht => ?_, exec_backoffExpiry_early hr, exec_backoffExpiry_due hr⟩
  have hexec := exec_ackTimeout_due hr he ht
  refine ⟨fun hl => ?_, fun hl hk => ?_, fun hl hk => ?_⟩
  · rw [hexec, State.ackExpired_within hl]
    rfl
  · rw [hexec, State.ackExpired_keep hl hk]
  · rw [hexec, State.ackExpired_release hl hk]

/-! ### The last character of a frame (R162, R169, R182, R183) -/

section Frame

variable {ps : PortState} {len : Byte} {chars : List Byte}

/-- R182, check 1. -/
theorem PortState.checkFrame_badCrc (hc : crcRight len chars = false) :
    ps.checkFrame len chars = { ps with link := ps.link.fault .badCrc } := by
  simp [PortState.checkFrame, hc]

/-- R182, check 2. -/
theorem PortState.checkFrame_badType (hc : crcRight len chars = true) (hrequest : byteAt chars 0 ≠ 0x01)
    (hack : byteAt chars 0 ≠ 0x02) : ps.checkFrame len chars = { ps with link := ps.link.fault .badType } := by
  simp only [PortState.checkFrame, hc, Bool.not_true, Bool.false_eq_true, if_false, if_neg hrequest, if_neg hack]

theorem PortState.checkFrame_request (hc : crcRight len chars = true) (ht : byteAt chars 0 = 0x01) :
    ps.checkFrame len chars = ps.requestArrived ((chars.take len.toNat).drop 1) := by
  simp only [PortState.checkFrame, hc, Bool.not_true, Bool.false_eq_true, if_false, if_pos ht]

theorem PortState.checkFrame_ack (hc : crcRight len chars = true) (ht : byteAt chars 0 = 0x02) :
    ps.checkFrame len chars = ps.ackArrived ((chars.take len.toNat).drop 1) := by
  have hrequest : byteAt chars 0 ≠ 0x01 := by rw [ht]; decide
  simp only [PortState.checkFrame, hc, Bool.not_true, Bool.false_eq_true, if_false, if_neg hrequest, if_pos ht]

/-- R182, check 3: the REQUEST frame finds room. -/
theorem PortState.requestArrived_room (payload : List Byte) (h : ps.link.fifo.length < 4) :
    ps.requestArrived payload =
      { ps with
        engine := ps.engine.resume
        link := { ps.link with
          rx := .hunt, fifo := ps.link.fifo ++ [payload], framesAccepted := ps.link.framesAccepted + 1 } } :=
  congrArg (fun l => { ps with engine := ps.engine.resume, link := l }) (if_pos h)

/-- R182, check 3, R169: the REQUEST frame finds no room, and a STALLED engine resumes all the same. -/
theorem PortState.requestArrived_full (payload : List Byte) (h : 4 ≤ ps.link.fifo.length) :
    ps.requestArrived payload = { ps with engine := ps.engine.resume, link := ps.link.fault .fifoFull } :=
  congrArg (fun l => { ps with engine := ps.engine.resume, link := l }) (if_neg (Nat.not_lt.2 h))

/-- The port with no character under way, its receive line at mark. -/
def PortState.atRest (ps : PortState) : PortState :=
  { ps with link := { ps.link with spaceSince := none, arriving := none } }

/-- R181, R182: the last character completes the frame. -/
theorem PortState.receive_last {g start : Nat} (b : Byte) (now : Nat) (hrx : ps.link.rx = .body len chars g)
    (hlast : chars.length + 1 = len.toNat + 2) (ha : ps.link.arriving = some start) :
    ps.receive b now = ps.atRest.checkFrame len (chars ++ [b]) := by
  simp only [PortState.receive, ha, hrx, hlast, Nat.lt_irrefl, if_false]
  rfl

/-- The two names of the end of a frame's last character (notes/assumptions/12). -/
theorem exec_lastCharacter {s : State} {p : Port} {g start : Nat} (b : Byte) (hr : s.rstN = true)
    (hrx : (s.link p).rx = .body len chars g) (hlast : chars.length + 1 = len.toNat + 2)
    (ha : (s.link p).arriving = some start) :
    exec (.frameComplete p b) s = .next (s.setPort p ((s.port p).atRest.checkFrame len (chars ++ [b]))) ∧
    exec (.characterReceived p b .endsAtMark) s =
      .next (s.setPort p ((s.port p).atRest.checkFrame len (chars ++ [b]))) := by
  have hreceive := PortState.receive_last b s.runTime hrx hlast ha
  refine ⟨?_, ?_⟩
  · have hat : (s.link p).rx.atLast = true := by simp [hrx, Receiver.atLast, hlast]
    rw [execFrameComplete_released p b hr, if_pos hat, hreceive]
  · rw [execCharacterReceived_released p b .endsAtMark hr]
    exact congrArg (fun x => Host.Outcome.next (s.setPort p x)) hreceive

end Frame

/-- Settles O50: both names come to `PortState.checkFrame`, whose checks decide in their order. -/
theorem frameComplete : Obligations.FrameComplete := by
  intro s p b len chars g start hr hrx hlast ha ps whole type payload hunting faulted resumed after
  have key : ∀ x : PortState, ps.atRest.checkFrame len whole = x → after x := by
    rintro x rfl
    exact exec_lastCharacter b hr hrx hlast ha
  refine ⟨fun hc => key _ (PortState.checkFrame_badCrc hc),
    fun hc hrequest hack => key _ (PortState.checkFrame_badType hc hrequest hack),
    fun hc ht => key _ (PortState.checkFrame_ack hc ht), fun hc ht hroom => key _ ?_, fun hc ht hfull => key _ ?_⟩
  · rw [PortState.checkFrame_request hc ht]
    exact PortState.requestArrived_room (ps := ps.atRest) payload hroom
  · rw [PortState.checkFrame_request hc ht]
    exact PortState.requestArrived_full (ps := ps.atRest) payload hfull

end Sys2Proof.Machine
end

section
/-! SUPPORT. Requests in general: what taking and answering one change, when none is taken, which are answered before they
are looked at, and the two requests CLEAR_FAULTS and GET_INFO (R185, R186, R189, R190, R194).
-/

namespace Sys2Proof.Machine

/-! ### Taking and answering (R185, R186) -/

/-- A port's link is in no block but that port. -/
theorem State.setLink_sameBlocks (s : State) (p : Port) (x : Link) : SameBlocks s (s.setLink p x) :=
  ⟨⟨rfl, rfl, rfl, rfl, rfl⟩, ⟨rfl, rfl, rfl⟩, ⟨rfl, rfl⟩, ⟨rfl, rfl, rfl⟩, ⟨rfl, rfl, rfl⟩, ⟨rfl, rfl⟩, rfl, rfl⟩

/-- Settles O20: both operations set the port's link, to `Link.take` and to `Link.respond`. -/
theorem requestTakenAndAnswered : Obligations.RequestTakenAndAnswered := by
  intro s p tag code r
  refine ⟨s.setLink_sameBlocks p _, fun q hq => ?_, ?_, s.setLink_sameBlocks p _, fun q hq => ?_, ?_⟩
  · rw [State.port_takeRequest, if_neg hq]
  · rw [State.port_takeRequest, if_pos rfl, Link.take, List.drop_one]
  · rw [State.port_respond, if_neg hq]
  · rw [State.port_respond, if_pos rfl]
    rfl

/-! ### When a request may be taken (R185, R190) -/

theorem Link.takable_eq_none_iff (l : Link) :
    l.takable = none ↔ l.fifo = [] ∨ 4 ≤ l.responses.length ∨ l.resetAwaited = true := by
  unfold Link.takable
  split
  · next hwaits =>
    rw [Bool.or_eq_true, decide_eq_true_iff] at hwaits
    exact iff_of_true rfl (.inr hwaits)
  · next hfree =>
    rw [Bool.or_eq_true, decide_eq_true_iff] at hfree
    rw [List.head?_eq_none_iff]
    exact (or_iff_left hfree).symm

/-- R185: a port with room for the response and no reset awaited may take the head of its FIFO. -/
theorem Link.takable_eq_head? {l : Link} (hroom : l.responses.length < 4) (hreset : l.resetAwaited = false) :
    l.takable = l.fifo.head? := by
  simp [Link.takable, Config.responseCapacity, hreset, Nat.not_le.2 hroom]

/-! ### Every request command (R185, R186, R194, Table 10-9) -/

/-- The command serves requests of `code` at port `p` by `run`, which refuses an argument field of another length than
Table 10-9 gives. -/
structure ServedBy (c : Instr) (p : Port) (code : Byte) (run : List Byte → State → State × Reply) : Prop where
  exec_eq {s : State} (hr : s.rstN = true) : exec c s = .next (s.serve p code run)
  malformed {n : Nat} {args : List Byte} (hcode : requestLength code = some n) (hlen : args.length ≠ n) (t : State) :
    run args t = (t, Reply.plain .malformed)

/-- A request whose length is checked first. -/
theorem ServedBy.withLength {c : Instr} {p : Port} {code : Byte} {n : Nat} {run : List Byte → State → State × Reply}
    (h : ∀ {s : State}, s.rstN = true → exec c s = .next (s.serve p code (withLength n run)))
    (hn : requestLength code = some n) : ServedBy c p code (withLength n run) where
  exec_eq := h
  malformed hcode hlen _ := withLength_ne (Option.some.inj (hn.symm.trans hcode) ▸ hlen)

/-- Every request command is of this shape: all but CREATE_ENTRY check their length first, and CREATE_ENTRY's is not in
`requestLength`. -/
theorem exec_request_servedBy {c : Instr} {p : Port} {code : Byte} (h : requestOf c = some (p, code)) :
    ∃ run, ServedBy c p code run := by
  have checked : ∀ {q : Port} {k : Byte} {n : Nat} {run : List Byte → State → State × Reply},
      requestOf c = some (q, k) →
      (∀ {s : State}, s.rstN = true → exec c s = .next (s.serve q k (withLength n run))) →
      requestLength k = some n → ∃ run, ServedBy c p code run := by
    intro q k n run hq hexec hn
    cases hq.symm.trans h
    exact ⟨_, .withLength hexec hn⟩
  cases c with
  | createEntry q =>
    cases h
    exact ⟨_, execCreateEntry_released p, nofun⟩
  | readTime q => exact checked rfl (execReadTime_released q) rfl
  | claimAuthority q => exact checked rfl (execClaimAuthority_released q) rfl
  | releaseAuthority q => exact checked rfl (execReleaseAuthority_released q) rfl
  | setCivil q => exact checked rfl (execSetCivil_released q) rfl
  | stepCivil q => exact checked rfl (execStepCivil_released q) rfl
  | cancelStep q => exact checked rfl (execCancelStep_released q) rfl
  | slewCivil q => exact checked rfl (execSlewCivil_released q) rfl
  | invalidateCivil q => exact checked rfl (execInvalidateCivil_released q) rfl
  | queryEntry q => exact checked rfl (execQueryEntry_released q) rfl
  | listEntries q => exact checked rfl (execListEntries_released q) rfl
  | cancelEntry q => exact checked rfl (execCancelEntry_released q) rfl
  | suspendEntry q => exact checked rfl (execSuspendEntry_released q) rfl
  | resumeEntry q => exact checked rfl (execResumeEntry_released q) rfl
  | claimLine q => exact checked rfl (execClaimLine_released q) rfl
  | releaseLine q => exact checked rfl (execReleaseLine_released q) rfl
  | driveLine q => exact checked rfl (execDriveLine_released q) rfl
  | claimInput q => exact checked rfl (execClaimInput_released q) rfl
  | releaseInput q => exact checked rfl (execReleaseInput_released q) rfl
  | setPortConfig q => exact checked rfl (execSetPortConfig_released q) rfl
  | getPortStatus q => exact checked rfl (execGetPortStatus_released q) rfl
  | clearFaults q => exact checked rfl (execClearFaults_released q) rfl
  | getInfo q => exact checked rfl (execGetInfo_released q) rfl
  | portReset q => exact checked rfl (execPortReset_released q) rfl
  | _ => cases h

/-- R185: no request command but UNKNOWN_REQUEST does anything where no request may be taken. -/
theorem exec_request_waiting {c : Instr} {s : State} {p : Port} {code : Byte} (hc : requestOf c = some (p, code))
    (hr : s.rstN = true) (hwaits : (s.link p).takable = none) : exec c s = .next s := by
  obtain ⟨run, served⟩ := exec_request_servedBy hc
  rw [served.exec_eq hr, State.serve_of_waiting code run hwaits]

theorem exec_unknownRequest_waiting {s : State} {p : Port} (hr : s.rstN = true) (hwaits : (s.link p).takable = none) :
    exec (.unknownRequest p) s = .next s := by
  rw [execUnknownRequest_released p hr, hwaits]

/-- R186, R194: the length of the argument field is checked before anything else. -/
theorem exec_request_malformed {c : Instr} {s : State} {p : Port} {tag code : Byte} {args : List Byte} {n : Nat}
    (hc : requestOf c = some (p, code)) (hn : requestLength code = some n) (hlen : args.length ≠ n)
    (h : Requested s p tag code args) :
    exec c s = .next ((s.takeRequest p).respond p tag code (Reply.plain .malformed)) := by
  obtain ⟨run, served⟩ := exec_request_servedBy hc
  rw [served.exec_eq h.1, State.serve_of_requested h, served.malformed hn hlen]

/-- Settles O21: the conditions of R185 are those under which nothing is takable, and every request command is
`ServedBy` a meaning that checks its length. -/
theorem requestWaitsOrIsMalformed : Obligations.RequestWaitsOrIsMalformed := by
  refine ⟨fun s c p hc hr hwaits => ?_, fun s c p tag code args n => exec_request_malformed⟩
  have hnone := (s.link p).takable_eq_none_iff.2 hwaits
  rcases hc with rfl | ⟨code, hc⟩
  · exact exec_unknownRequest_waiting hr hnone
  · exact exec_request_waiting hc hr hnone

/-! ### UNKNOWN_REQUEST (R186) -/

/-- Table 10-9: each of the 24 codes has a length, CREATE_ENTRY's by its arguments. -/
theorem requestLength_of_mem_requestCodes :
    ∀ code ∈ requestCodes, code.toNat = 0x10 ∨ requestLength code ≠ none := by
  decide

/-- Settles O22, by the head that may be taken. -/
theorem unknownRequest : Obligations.UnknownRequest := by
  intro s p hr hroom hreset
  have hexec := execUnknownRequest_released p hr
  rw [Link.takable_eq_head? hroom hreset] at hexec
  refine ⟨fun hhead => ?_, fun tag hhead => ?_, fun tag code args hhead hcreate hlength => ?_⟩
  · rw [hexec, hhead]
  · rw [hexec, hhead]
  · have hunknown : code ∉ requestCodes := fun hmem =>
      (requestLength_of_mem_requestCodes code hmem).elim hcreate fun hknown => hknown hlength
    rw [hexec, hhead]
    exact congrArg _ (if_neg hunknown)

/-! ### CLEAR_FAULTS and GET_INFO (R189) -/

/-- Settles O53: with arguments both are MALFORMED as every request is; without, each is carried out at once. -/
theorem clearFaultsAndGetInfo : Obligations.ClearFaultsAndGetInfo := by
  intro s p tag args t
  refine ⟨fun h => ⟨fun hargs => ?_, fun hargs => ?_⟩, fun h => ⟨fun hargs => ?_, fun hargs => ?_⟩⟩
  · exact exec_request_malformed rfl rfl (mt List.length_eq_zero_iff.1 hargs) h
  · rw [execClearFaults_released p h.1, State.serve_withLength h (List.length_eq_zero_iff.2 hargs)]
    rfl
  · exact exec_request_malformed rfl rfl (mt List.length_eq_zero_iff.1 hargs) h
  · rw [execGetInfo_released p h.1, State.serve_withLength h (List.length_eq_zero_iff.2 hargs)]
    rfl

end Sys2Proof.Machine
end

section
/-! SUPPORT. Frames and their CRC, and the receive line: the characters that end no frame, the gap, the break and the
return to mark (R178 to R184).
-/

namespace Sys2Proof.Machine

/-! ### The CRC (R179) -/

/-- R179: the generator is taken in where the bit shifted out differs from the data bit. -/
theorem crcBit_eq (r : Word16) (bit : Bool) :
    crcBit r bit = (r <<< 1) ^^^ (if (r.getLsbD 15 ^^ bit) then 0x1021 else 0) := by
  have hout : (r.msb != bit) = (r.getLsbD 15 ^^ bit) := by
    rw [BitVec.msb_eq_getLsbD_last]
  rw [crcBit, hout]
  split
  · rfl
  · exact (BitVec.xor_zero).symm

theorem crc_append_singleton (bytes : List Byte) (b : Byte) : crc (bytes ++ [b]) = crcByte (crc bytes) b := by
  rw [crc, List.foldl_append]
  rfl

/-- R194: a 16-bit value is sent low byte first. -/
theorem toBytes_two_word (w : Word16) : toBytes 2 w.toNat = [w.setWidth 8, (w >>> 8).setWidth 8] := by
  have hlow : BitVec.ofNat 8 w.toNat = w.setWidth 8 := by bv_omega
  have hhigh : BitVec.ofNat 8 (w.toNat / 256) = (w >>> 8).setWidth 8 := by bv_omega
  rw [← hlow, ← hhigh]
  rfl

/-- A 16-bit value sent is read back from its two bytes, and from no others; bit by bit. -/
theorem toBytes_two_word_eq_iff (w : Word16) (low high : Byte) : toBytes 2 w.toNat = [low, high] ↔ w = high ++ low := by
  rw [toBytes_two_word, List.cons.injEq, List.cons.injEq, and_iff_left rfl]
  constructor
  · rintro ⟨rfl, rfl⟩
    ext i hi
    grind
  · rintro rfl
    refine ⟨?_, ?_⟩ <;> (ext i hi; grind)

/-- R182, check 1: of a whole frame, the two bytes after LEN bytes are the CRC. -/
theorem crcRight_append_iff {len : Byte} {body : List Byte} (hlen : body.length = len.toNat) (low high : Byte) :
    crcRight len (body ++ [low, high]) = true ↔ crc (len :: body) = high ++ low := by
  rw [crcRight, List.take_left' hlen, List.drop_left' hlen, beq_iff_eq]
  exact toBytes_two_word_eq_iff _ low high

/-- Settles O48: the layout is `frameBytes` with the CRC's two bytes written out, and the receiver's check reads the same
two bytes back. -/
theorem framesAndTheirCrc : Obligations.FramesAndTheirCrc := by
  refine ⟨fun type payload => ?_, rfl, crc_append_singleton, fun _ _ => rfl, crcBit_eq,
    fun len body low high hlen => crcRight_append_iff hlen low high⟩
  rw [frameBytes, toBytes_two_word]

/-! ### Moments of a character (R178, R180, R181, R184) -/

section Line

variable {l : Link}

/-- R181, R184: the start bit on a line known to be at mark. -/
theorem Link.startBit_atMark (now : Nat) (hrx : l.rx ≠ .waitMark) (hs : l.spaceSince = none) (ha : l.arriving = none) :
    l.startBit now = { l with spaceSince := some now, arriving := some now } := by
  simp [Link.startBit, hrx, hs, ha]

theorem Link.startBit_elsewhere (now : Nat) (h : l.rx = .waitMark ∨ l.spaceSince ≠ none ∨ l.arriving ≠ none) :
    l.startBit now = l := by
  refine if_pos ?_
  rwa [Option.isSome_iff_ne_none, Option.isSome_iff_ne_none]

theorem spaceInstant_iff (b : Byte) (start space now : Nat) :
    spaceInstant b start space now = true ↔ start ≤ space ∧ space ≤ now ∧ (b = 0 → space = start) := by
  simp [spaceInstant, and_assoc, or_iff_not_imp_left]

/-- No line is at space since an instant outside the character, nor since one after its start where every bit was at
space. -/
theorem Link.endAtSpace_outside {b : Byte} {start space now : Nat} (ha : l.arriving = some start)
    (h : space < start ∨ now < space ∨ b = 0 ∧ space ≠ start) : l.endAtSpace b space now = l := by
  have hinstant : ¬spaceInstant b start space now = true := by
    rw [spaceInstant_iff]
    rintro ⟨hstart, hnow, hzero⟩
    rcases h with h | h | ⟨hb, hne⟩
    · omega
    · omega
    · exact hne (hzero hb)
  simp only [Link.endAtSpace, ha, if_neg hinstant]

end Line

section Character

variable {ps : PortState} {b : Byte} {start g : Nat} (now : Nat)

/-- R180: in HUNT only SYNC starts a frame. -/
theorem PortState.receive_hunt (ha : ps.link.arriving = some start) (hrx : ps.link.rx = .hunt) :
    ps.receive b now =
      { ps with link := { ps.atRest.link with rx := if b = Config.sync then .length now else .hunt } } := by
  simp only [PortState.receive, ha, hrx]
  rfl

/-- R180: in LENGTH the character is the LEN byte. -/
theorem PortState.receive_length (ha : ps.link.arriving = some start) (hrx : ps.link.rx = .length g) :
    ps.receive b now =
      { ps with
        link := if lengthOutOfRange b then ps.atRest.link.fault .badLength
                else { ps.atRest.link with rx := .body b [] now } } := by
  simp only [PortState.receive, ha, hrx]
  rfl

/-- R180, R181: in BODY a character that is not the last is kept. -/
theorem PortState.receive_body {len : Byte} {chars : List Byte} (ha : ps.link.arriving = some start)
    (hrx : ps.link.rx = .body len chars g) (hlast : chars.length + 1 < len.toNat + 2) :
    ps.receive b now = { ps with link := { ps.atRest.link with rx := .body len (chars ++ [b]) now } } := by
  simp only [PortState.receive, ha, hrx, if_pos hlast]
  rfl

end Character

theorem lengthOutOfRange_iff (b : Byte) : lengthOutOfRange b = true ↔ b.toNat = 0 ∨ 200 < b.toNat := by
  simp [lengthOutOfRange]

/-- Settles O49: the start bit is `Link.startBit`, the end at mark `PortState.receive` by the receiver's state, the end at
space `Link.endAtSpace`. -/
theorem charactersReceived : Obligations.CharactersReceived := by
  intro s p b hr l after
  have hstarts : ∀ x : Link, l.startBit s.runTime = x → after .starts x := by
    rintro _ rfl
    exact execCharacterReceived_released p b .starts hr
  have hmark : ∀ x : Link, (s.port p).receive b s.runTime = { s.port p with link := x } → after .endsAtMark x := by
    intro x hx
    refine (execCharacterReceived_released p b .endsAtMark hr).trans ?_
    exact congrArg (fun ps => Host.Outcome.next (s.setPort p ps)) hx
  have hspace : ∀ (t : Nat) (x : Link), l.endAtSpace b t s.runTime = x → after (.endsAtSpace t) x := by
    rintro t _ rfl
    exact execCharacterReceived_released p b (.endsAtSpace t) hr
  refine ⟨fun hrx hs ha => hstarts _ (Link.startBit_atMark _ hrx hs ha), fun h => hstarts _ (Link.startBit_elsewhere _ h),
    fun ha => ⟨hmark _ (PortState.receive_idle ha), fun t => hspace t _ (Link.endAtSpace_idle ha)⟩, ?_⟩
  intro start ha idle
  refine ⟨fun hrx hb => hmark _ ?_, fun hrx hb => hmark _ ?_, fun g hrx => ⟨fun hlo hhi => hmark _ ?_, fun hlen => ?_⟩,
    fun len chars g hrx hlast => hmark _ (PortState.receive_body _ ha hrx hlast), fun t hstart hnow hzero => ?_,
    fun t h => hspace t _ (Link.endAtSpace_outside ha h)⟩
  · rw [PortState.receive_hunt _ ha hrx, if_pos (show b = Config.sync from hb)]
    rfl
  · rw [PortState.receive_hunt _ ha hrx, if_neg (show b ≠ Config.sync from hb), ← hrx]
    rfl
  · have hlen : ¬lengthOutOfRange b = true := by
      rw [lengthOutOfRange_iff]
      omega
    rw [PortState.receive_length _ ha hrx, if_neg hlen]
    rfl
  · intro faulted
    have hreceive : (s.port p).receive b s.runTime = { s.port p with link := faulted } := by
      rw [PortState.receive_length _ ha hrx, if_pos ((lengthOutOfRange_iff b).2 hlen)]
      rfl
    refine ⟨hmark _ hreceive, ?_⟩
    have hat : ((s.link p).rx.atLength && lengthOutOfRange b) = true := by
      rw [show (s.link p).rx = .length g from hrx, (lengthOutOfRange_iff b).2 hlen]
      rfl
    rw [execLengthFault_released p b hr, if_pos hat, hreceive]
  · have hend := Link.endAtSpace_eq ha ((spaceInstant_iff b start t s.runTime).2 ⟨hstart, hnow, hzero⟩)
    refine ⟨fun hrx => hspace t _ ?_, fun g hrx => hspace t _ ?_, fun len chars g hrx => hspace t _ ?_⟩
    · rw [hend, hrx, Receiver.unread, ← hrx]
    · rw [hend, hrx, Receiver.unread]
    · rw [hend, hrx, Receiver.unread]

/-! ### Gap, break and mark (R180, R181, R183, R184) -/

section Events

variable {s : State} {p : Port}

theorem exec_gapExpiry_over (hr : s.rstN = true) (h : (s.link p).gapOver s.runTime = true) :
    exec (.gapExpiry p) s = .next (s.setLink p ((s.link p).fault .truncated)) := by
  rw [execGapExpiry_released p hr, if_pos h]

theorem exec_gapExpiry_early (hr : s.rstN = true) (h : ¬(s.link p).gapOver s.runTime = true) :
    exec (.gapExpiry p) s = .next s := by
  rw [execGapExpiry_released p hr, if_neg h]

theorem exec_breakSeen_early (hr : s.rstN = true) (h : ¬(s.link p).spaceLong s.runTime = true) :
    exec (.breakSeen p) s = .next s := by
  rw [execBreakSeen_released p hr, if_neg h]

/-- No space level is being counted, so none is long enough. -/
theorem exec_breakSeen_noSpace (hr : s.rstN = true) (h : (s.link p).spaceSince = none) :
    exec (.breakSeen p) s = .next s :=
  exec_breakSeen_early hr (by simp [Link.spaceLong_iff, h])

end Events

/-- The gap counted in a receiver inside a frame. -/
theorem Link.gapOver_inFrame {l : Link} {g : Nat} (now : Nat)
    (h : l.rx = .length g ∨ ∃ len chars, l.rx = .body len chars g) :
    l.gapOver now = true ↔ l.arriving = none ∧ g + 1000 < now := by
  rcases h with h | ⟨len, chars, h⟩ <;> simp [Link.gapOver_iff, h, Config.gapLimit]

theorem Link.spaceLong_since {l : Link} {t : Nat} (now : Nat) (h : l.spaceSince = some t) :
    l.spaceLong now = true ↔ t + 2000 ≤ now := by
  simp [Link.spaceLong_iff, h, Config.breakTime]

/-- Settles O51: both expiries by the conditions of their moment, `Link.gapOver` and `Link.spaceLong`; in WAIT_MARK no
space level is counted (`Link.ok`). -/
theorem gapBreakAndMark : Obligations.GapBreakAndMark := by
  intro s p hr l after
  refine ⟨fun g hrx => ⟨fun hg ha => ?_, fun h => exec_gapExpiry_early hr ?_⟩,
    fun hrx => exec_gapExpiry_early hr ?_, fun t ht => ⟨fun hlong => ?_, fun hshort => exec_breakSeen_early hr ?_⟩,
    exec_breakSeen_noSpace hr, fun hok hrx => exec_breakSeen_noSpace hr (hok.1 hrx).1, fun hrx => ?_, fun hrx => ?_⟩
  · exact exec_gapExpiry_over hr ((Link.gapOver_inFrame _ hrx).2 ⟨ha, hg⟩)
  · rw [Link.gapOver_inFrame _ hrx]
    rintro ⟨ha, hg⟩
    rcases h with h | h
    · omega
    · exact h ha
  · rw [Link.gapOver_iff]
    rcases hrx with hrx | hrx <;> simp [l, hrx]
  · rw [execBreakSeen_released p hr, if_pos ((Link.spaceLong_since _ ht).2 hlong)]
  · rw [Link.spaceLong_since _ ht]
    omega
  · refine (execReceiveLineAtMark_released p hr).trans ?_
    rw [Link.atMark, if_pos hrx]
    rfl
  · refine (execReceiveLineAtMark_released p hr).trans ?_
    rw [Link.atMark, if_neg hrx]
    rfl

end Sys2Proof.Machine
end

section
/-! SUPPORT. One step: the command at the front of the queue, or, with none waiting, one REFCLK cycle (R1).
-/

namespace Sys2Proof.Machine

/-! ### What a step takes -/

theorem step_of_pending_cons {s : State} {c : Instr} {rest : List Instr} (h : s.pending = c :: rest) :
    step s = exec c { s with pending := rest } := by
  rw [step, h]

theorem step_of_pending_nil {s : State} (h : s.pending = []) : step s = .next s.refclk := by
  rw [step, h]

/-! ### One REFCLK cycle -/

theorem State.refclk_low {s : State} (hr : s.rstN = false) : s.refclk = s := by
  simp [State.refclk, hr]

theorem State.refclk_counts {s : State} (hr : s.rstN = true) (h : s.refclkCycles + 1 < Config.cyclesPerAdvance) :
    s.refclk = { s with refclkCycles := s.refclkCycles + 1 } := by
  rw [State.refclk, if_pos hr, if_pos h]

theorem State.refclk_tenth {s : State} (hr : s.rstN = true) (h : Config.cyclesPerAdvance ≤ s.refclkCycles + 1) :
    s.refclk = if s.settled then s.takeAdvance else s := by
  rw [State.refclk, if_pos hr, if_neg (Nat.not_lt.2 h)]

/-- The tenth cycle is RUN_TIME_ADVANCE, whether or not an event of the present instant holds the advance back. -/
theorem next_refclk_tenth {s : State} (hr : s.rstN = true) (h : Config.cyclesPerAdvance ≤ s.refclkCycles + 1) :
    .next s.refclk = exec .runTimeAdvance s := by
  rw [State.refclk_tenth hr h, execRunTimeAdvance_released hr]

/-- Settles O1: the queue's front decides which case of the step it is. -/
theorem stepTakesFrontCommand : Obligations.StepTakesFrontCommand :=
  fun _ _ _ h => step_of_pending_cons h

/-- Settles O2: the step is the REFCLK cycle, which is taken case by case. -/
theorem emptyQueueIsOneReferenceCycle : Obligations.EmptyQueueIsOneReferenceCycle := by
  intro s hq
  rw [step_of_pending_nil hq]
  refine ⟨fun hr => ?low, fun hr hlt => ?counts, fun hr hge _ => ?advance, fun hr hge hset => ?waits⟩
  case low => rw [State.refclk_low hr]
  case counts => rw [State.refclk_counts hr hlt]
  case advance => exact next_refclk_tenth hr hge
  case waits => simp [State.refclk_tenth hr hge, hset]

end Sys2Proof.Machine
end

section
/-! SUPPORT. The operations of the schedule table and of the two due lists: an insertion into an ordered list, and what
allocating, arming, parking and freeing an entry change (R43, R45, R47, R48, R66 to R68, R96, R97).
-/

namespace Sys2Proof.Machine

/-! ### Insertion into an ordered due list (R66, R96) -/

section OrderedInsert

variable {α : Type} {r : α → α → Prop} [DecidableRel r] {x : α} {xs : List α}

/-- An element that stands in a strict order to every other keeps the list in that order. -/
theorem pairwise_orderedInsert (htrans : ∀ {a b c : α}, r a b → r b c → r a c)
    (hx : ∀ y ∈ xs, r x y ∨ r y x) (h : xs.Pairwise r) : (xs.orderedInsert r x).Pairwise r := by
  induction xs with
  | nil => simp
  | cons y ys ih =>
    obtain ⟨hy, hys⟩ := List.pairwise_cons.1 h
    rw [List.orderedInsert_cons]
    split
    · next hxy => exact List.pairwise_cons.2 ⟨List.forall_mem_cons.2 ⟨hxy, fun z hz => htrans hxy (hy z hz)⟩, h⟩
    · next hxy =>
      have hyx : r y x := (hx y (by simp)).resolve_left hxy
      refine List.pairwise_cons.2 ⟨fun z hz => ?_, ih (fun z hz => hx z (by simp [hz])) hys⟩
      rcases (List.mem_orderedInsert r).1 hz with rfl | hz
      · exact hyx
      · exact hy z hz

/-- An element that a filter drops is as if it were not inserted. -/
theorem filter_orderedInsert_of_not {p : α → Bool} (hp : p x = false) :
    (xs.orderedInsert r x).filter p = xs.filter p := by
  induction xs with
  | nil => simp [hp]
  | cons y ys ih =>
    rw [List.orderedInsert_cons]
    split
    · rw [List.filter_cons, hp, if_neg Bool.false_ne_true]
    · rw [List.filter_cons, List.filter_cons, ih]

/-- A filter that keeps the inserted element alone leaves it alone. -/
theorem filter_orderedInsert_alone {p : α → Bool} (hp : p x = true) (hxs : ∀ y ∈ xs, p y = false) :
    (xs.orderedInsert r x).filter p = [x] := by
  have hrest : xs.filter p = [] := List.filter_eq_nil_iff.2 fun y hy => Bool.eq_false_iff.1 (hxs y hy)
  refine List.perm_singleton.1 ?_
  calc ((xs.orderedInsert r x).filter p).Perm ((x :: xs).filter p) := (List.perm_orderedInsert r x xs).filter p
    _ = [x] := by rw [List.filter_cons, if_pos hp, hrest]

end OrderedInsert

theorem MonoPos.before_iff (a b : MonoPos) : a.before b = true ↔ a.due < b.due ∨ (a.due = b.due ∧ a.id.val < b.id.val) := by
  simp [MonoPos.before]

theorem CivilPos.before_iff (a b : CivilPos) :
    a.before b = true ↔ a.next.count < b.next.count ∨ (a.next.count = b.next.count ∧ a.id.val < b.id.val) := by
  simp [CivilPos.before]

theorem MonoPos.before_trans {a b c : MonoPos} (h : a.before b = true) (k : b.before c = true) : a.before c = true := by
  rw [MonoPos.before_iff] at h k ⊢
  omega

theorem CivilPos.before_trans {a b c : CivilPos} (h : a.before b = true) (k : b.before c = true) :
    a.before c = true := by
  rw [CivilPos.before_iff] at h k ⊢
  omega

theorem MonoPos.before_total {a b : MonoPos} (h : b.id ≠ a.id) : a.before b = true ∨ b.before a = true := by
  rw [MonoPos.before_iff, MonoPos.before_iff]
  have hid : b.id.val ≠ a.id.val := fun hv => h (Fin.ext hv)
  omega

theorem CivilPos.before_total {a b : CivilPos} (h : b.id ≠ a.id) : a.before b = true ∨ b.before a = true := by
  rw [CivilPos.before_iff, CivilPos.before_iff]
  have hid : b.id.val ≠ a.id.val := fun hv => h (Fin.ext hv)
  omega

theorem insertMono_eq (x : MonoPos) (xs : List MonoPos) :
    insertMono x xs = xs.orderedInsert (fun a b => a.before b = true) x := by
  induction xs with
  | nil => rfl
  | cons y ys ih => rw [insertMono, List.orderedInsert_cons, ih]

theorem insertCivil_eq (x : CivilPos) (xs : List CivilPos) :
    insertCivil x xs = xs.orderedInsert (fun a b => a.before b = true) x := by
  induction xs with
  | nil => rfl
  | cons y ys ih => rw [insertCivil, List.orderedInsert_cons, ih]

theorem insertMono_pairwise {x : MonoPos} {xs : List MonoPos} (h : xs.Pairwise (fun a b => a.before b = true))
    (hx : ∀ y ∈ xs, y.id ≠ x.id) : (insertMono x xs).Pairwise (fun a b => a.before b = true) := by
  rw [insertMono_eq]
  exact pairwise_orderedInsert MonoPos.before_trans (fun y hy => MonoPos.before_total (hx y hy)) h

theorem insertCivil_pairwise {x : CivilPos} {xs : List CivilPos} (h : xs.Pairwise (fun a b => a.before b = true))
    (hx : ∀ y ∈ xs, y.id ≠ x.id) : (insertCivil x xs).Pairwise (fun a b => a.before b = true) := by
  rw [insertCivil_eq]
  exact pairwise_orderedInsert CivilPos.before_trans (fun y hy => CivilPos.before_total (hx y hy)) h

/-! ### One slot set -/

section Table

variable (s : State) (id : EntryId) (e : Entry)


theorem State.slot_setEntry (j : EntryId) :
    (s.setEntry id e).slot j = if j = id then { gen := (s.slot id).gen, entry := some e } else s.slot j :=
  s.slot_setSlot id j _

theorem State.slot_armMono (due : Nat) (late : Bool) (j : EntryId) :
    (s.armMono id e due late).slot j =
      if j = id then
        { gen := (s.slot id).gen, entry := some { e with state := .armed, timing := e.timing.withDue due } }
      else s.slot j := by
  simp only [State.armMono, State.setLists_slot, State.slot_setEntry, State.unlist_slot]

theorem State.slot_armCivil (next : Civil) (j : EntryId) :
    (s.armCivil id e next).slot j =
      if j = id then
        { gen := (s.slot id).gen, entry := some { e with state := .armed, timing := e.timing.withNext next } }
      else s.slot j := by
  simp only [State.armCivil, State.setLists_slot, State.slot_setEntry, State.unlist_slot]

theorem State.slot_allocate (j : EntryId) :
    (s.allocate id e).slot j = if j = id then { gen := (s.slot id).gen + 1, entry := some e } else s.slot j := by
  rw [State.allocate, State.setHeld_slot, State.slot_setSlot]

/-- A slot that reads as set, and the others as before. -/
theorem slotSet_of_slot {s t : State} {id : EntryId} {x : Slot}
    (h : ∀ j : EntryId, t.slot j = if j = id then x else s.slot j) : SlotSet s t id x :=
  ⟨(h id).trans (if_pos rfl), fun j hj => (h j).trans (if_neg hj)⟩

/-! ### The held counts and the pool use (R48) -/

/-- A held count set, with the pool use formed again. -/
theorem heldSet_of_heldBy {s t : State} {p : Port} {n : Nat}
    (h : ∀ q : Port, t.heldBy q = if q = p then n else s.heldBy q) (hpool : t.poolUse = poolUseOf t.held) :
    HeldSet s t p n :=
  ⟨(h p).trans (if_pos rfl), fun q hq => (h q).trans (if_neg hq), hpool.trans (poolUseOf_held t)⟩

theorem State.allocate_heldSet : HeldSet s (s.allocate id e) e.owner (s.heldBy e.owner + 1) :=
  heldSet_of_heldBy (fun q => State.heldBy_setHeld (s.setSlot id _) e.owner q _) rfl

theorem State.freeEntry_heldSet {s : State} {id : EntryId} {e : Entry} (h : (s.slot id).entry = some e) :
    HeldSet s (s.freeEntry id) e.owner (s.heldBy e.owner - 1) := by
  obtain ⟨-, -, hheld, hpool⟩ := State.freeEntry_of_entry h
  refine heldSet_of_heldBy (fun q => ?_) hpool
  rw [hheld]
  by_cases hq : q = e.owner
  · rw [if_pos hq, if_pos hq, hq]
  · rw [if_neg hq, if_neg hq]

end Table

/-- What changes only the table and the due lists. -/
theorem SameOutsideTable.of_shell {s t : State} (h : t.shell = s.shell) (hlines : t.lines = s.lines)
    (hports : t.ports = s.ports) : SameOutsideTable s t :=
  ⟨⟨State.rstN_of_shell h, State.rate1_of_shell h, State.rate0_of_shell h, State.runTime_of_shell h,
      State.refclkCycles_of_shell h⟩,
    ⟨State.civil_of_shell h, State.slew_of_shell h, State.step_of_shell h⟩,
    ⟨State.lease_of_shell h, State.waiters_of_shell h⟩, ⟨hlines, State.inputs_of_shell h⟩,
    ⟨State.freeCount_of_shell h, State.pending_of_shell h⟩, hports, State.reached_of_shell h⟩

/-- Settles O26: each operation sets one slot (`slotSet_of_slot`) and keeps all that lies outside the table; the due
lists' insertions are ordered ones (`insertMono_eq`, `insertCivil_eq`). -/
theorem tableAndListOperations : Obligations.TableAndListOperations := by
  refine ⟨fun s id e => ⟨?allocate, fun due late => ?armMono, fun next => ?armCivil, fun st => ?park, fun he => ?free⟩,
    ⟨fun _ _ _ _ _ _ _ _ _ _ => ⟨rfl, rfl, rfl, rfl, rfl, rfl⟩, fun _ _ _ _ _ => ⟨rfl, rfl⟩⟩,
    fun x xs hxs hx => ?insertMono, fun x xs hxs hx => ?insertCivil⟩
  case allocate =>
    exact ⟨slotSet_of_slot (s.slot_allocate id e), s.allocate_heldSet id e, ⟨rfl, rfl, rfl⟩, .of_shell rfl rfl rfl⟩
  case armMono =>
    exact ⟨slotSet_of_slot (s.slot_armMono id e due late), rfl, rfl, rfl, rfl, .of_shell rfl rfl rfl⟩
  case armCivil =>
    exact ⟨slotSet_of_slot (s.slot_armCivil id e next), rfl, rfl, rfl, rfl, .of_shell rfl rfl rfl⟩
  case park =>
    exact ⟨slotSet_of_slot fun j => s.slot_park id j e st, rfl, rfl, rfl, rfl, .of_shell rfl rfl rfl⟩
  case free =>
    obtain ⟨hmono, hcivils, -⟩ := State.freeEntry_of_entry he
    exact ⟨slotSet_of_slot (s.slot_freeEntry id), hmono, hcivils, State.freeEntry_heldSet he,
      .of_shell (s.shell_freeEntry id) (s.freeEntry_lines id) (s.freeEntry_ports id)⟩
  case insertMono =>
    have hkeep : xs.filter (fun y => y.id != x.id) = xs := List.filter_eq_self.2 fun y hy => by simp [hx y hy]
    refine ⟨?_, insertMono_pairwise hxs hx, ?_⟩
    · rw [insertMono_eq]
      exact List.perm_orderedInsert _ x xs
    · rw [insertMono_eq, filter_orderedInsert_of_not (by simp), hkeep]
  case insertCivil =>
    have hkeep : xs.filter (fun y => y.id != x.id) = xs := List.filter_eq_self.2 fun y hy => by simp [hx y hy]
    refine ⟨?_, insertCivil_pairwise hxs hx, ?_⟩
    · rw [insertCivil_eq]
      exact List.perm_orderedInsert _ x xs
    · rw [insertCivil_eq, filter_orderedInsert_of_not (by simp), hkeep]

end Sys2Proof.Machine
end

section
/-! SUPPORT. The schedule invariant, operation by operation: the due lists agree with every slot but one, and an operation
on that one slot brings it back in agreement (R42, R47, R48, R66, R96, R97).
-/

namespace Sys2Proof.Machine

/-! ### Entries by kind (Table 3-1, Table 3-2) -/

/-- The entry is of the kind that stands in the CIVIL due list. -/
def Timing.isPattern : Timing → Bool
  | .pattern _ _ _ _ => true
  | .once _ | .periodic _ _ _ _ | .afterCapture _ _ _ _ => false

/-- The fields that do not depend on the entry's state are in their ranges. -/
def Timing.fits : Timing → Prop
  | .once _ | .afterCapture _ _ _ _ => True
  | .periodic _ _ period skips => 100 ≤ period ∧ skips ≤ 255
  | .pattern pat _ _ skips => pat.inRange = true ∧ skips ≤ 255

/-- Table 3-2: the states outside the due lists that an entry of the kind may be in. -/
def Timing.mayPark : Timing → EntryState → Prop
  | _, .suspended => True
  | .pattern _ _ _ _, .dormant => True
  | .afterCapture _ _ _ _, .waiting => True
  | _, _ => False

theorem Timing.isPattern_iff (t : Timing) :
    t.isPattern = true ↔ ∃ pat next policy skips, t = .pattern pat next policy skips := by
  cases t <;> simp [Timing.isPattern]

theorem Timing.isPattern_withNext (t : Timing) (next : Civil) : (t.withNext next).isPattern = t.isPattern := by
  cases t <;> rfl

theorem Timing.isPattern_withSkips (t : Timing) (n : Nat) : (t.withSkips n).isPattern = t.isPattern := by
  cases t <;> rfl

theorem Timing.withSkips_skips (t : Timing) : t.withSkips t.skips = t := by
  cases t <;> rfl

theorem Timing.fits.withSkips {t : Timing} (h : t.fits) {n : Nat} (hn : n ≤ 255) : (t.withSkips n).fits := by
  cases t with
  | once | afterCapture => trivial
  | periodic => exact ⟨h.1, hn⟩
  | pattern => exact ⟨h.1, hn⟩

theorem Timing.fits.skips_le {t : Timing} (h : t.fits) : t.skips ≤ 255 := by
  cases t with
  | once | afterCapture => exact Nat.zero_le _
  | periodic => exact h.2
  | pattern => exact h.2

theorem Entry.ok.fits {e : Entry} (h : e.ok) : e.timing.fits := by
  unfold Entry.ok at h
  split at h
  · next ht => rw [ht]; trivial
  · next ht =>
    obtain ⟨-, hperiod, hskips⟩ := h
    rw [ht]
    exact ⟨hperiod, hskips⟩
  · next ht =>
    obtain ⟨-, -, hrange, hskips⟩ := h
    rw [ht]
    exact ⟨hrange, hskips⟩
  · next ht => rw [ht]; trivial

/-- Table 3-2: DORMANT is a state of PATTERN entries alone. -/
theorem Entry.ok.isPattern_of_dormant {e : Entry} (h : e.ok) (hd : e.state = .dormant) : e.timing.isPattern = true := by
  unfold Entry.ok at h
  rw [hd] at h
  cases ht : e.timing <;> simp_all [Timing.isPattern]

/-- The entry takes the place that its slot and the due lists give it. -/
structure Entry.Placed (e : Entry) (dues : List Nat) (nexts : List Civil) : Prop where
  ok           : e.ok
  monoDues     : e.monoDues = dues
  civilMatches : e.civilMatches = nexts

section Placed

variable {e : Entry} (h : e.timing.fits)
include h

theorem Entry.placed_armMono (hk : e.timing.isPattern = false) (due : Nat) :
    Entry.Placed { e with state := .armed, timing := e.timing.withDue due } [due] [] := by
  cases ht : e.timing with
  | once => exact ⟨Or.inl rfl, rfl, rfl⟩
  | periodic =>
    rw [ht] at h
    exact ⟨⟨Or.inl rfl, h⟩, rfl, rfl⟩
  | pattern => rw [ht] at hk; cases hk
  | afterCapture => exact ⟨by simp [Entry.ok, Timing.withDue], rfl, rfl⟩

theorem Entry.placed_armCivil (hk : e.timing.isPattern = true) (next : Civil) :
    Entry.Placed { e with state := .armed, timing := e.timing.withNext next } [] [next] := by
  obtain ⟨pat, old, policy, skips, ht⟩ := e.timing.isPattern_iff.1 hk
  rw [ht] at h ⊢
  exact ⟨⟨by simp, by simp, h⟩, rfl, rfl⟩

theorem Entry.placed_park {st : EntryState} (hp : e.timing.mayPark st) :
    Entry.Placed { e with state := st, timing := e.timing.disarmed } [] [] := by
  have hst : st ≠ .armed := by
    rintro rfl
    revert hp
    cases e.timing <;> exact id
  refine ⟨?_, if_neg hst, if_neg hst⟩
  cases ht : e.timing with
  | once => cases st <;> simp_all [Timing.mayPark, Entry.ok, Timing.disarmed]
  | periodic => cases st <;> simp_all [Timing.mayPark, Timing.fits, Entry.ok, Timing.disarmed]
  | pattern => cases st <;> simp_all [Timing.mayPark, Timing.fits, Entry.ok, Timing.disarmed]
  | afterCapture => cases st <;> simp_all [Timing.mayPark, Entry.ok, Timing.disarmed]

end Placed

/-! ### Slots and lists that agree -/

section SlotOk

variable {s t : State} {id : EntryId}

theorem SlotOk.of_free (he : (s.slot id).entry = none) (hm : s.monoAt id = []) (hc : s.civilAt id = []) : SlotOk s id := by
  simp only [SlotOk, he]
  exact ⟨hm, hc⟩

theorem SlotOk.of_entry {e : Entry} (he : (s.slot id).entry = some e) (h : e.Placed (s.monoAt id) (s.civilAt id)) :
    SlotOk s id := by
  simp only [SlotOk, he]
  exact ⟨h.ok, h.monoDues.symm, h.civilMatches.symm⟩

theorem SlotOk.free (h : SlotOk s id) (he : (s.slot id).entry = none) : s.monoAt id = [] ∧ s.civilAt id = [] := by
  simpa only [SlotOk, he] using h

theorem SlotOk.placed {e : Entry} (h : SlotOk s id) (he : (s.slot id).entry = some e) :
    e.Placed (s.monoAt id) (s.civilAt id) := by
  simp only [SlotOk, he] at h
  obtain ⟨hok, hm, hc⟩ := h
  exact ⟨hok, hm.symm, hc.symm⟩

theorem SlotOk.congr (h : SlotOk s id) (hslot : t.slot id = s.slot id) (hm : t.monoAt id = s.monoAt id)
    (hc : t.civilAt id = s.civilAt id) : SlotOk t id := by
  unfold SlotOk
  rw [hslot, hm, hc]
  exact h

end SlotOk

/-- R66, R96: both due lists are in order. -/
def State.Ordered (s : State) : Prop :=
  s.mono.Pairwise (fun x y => x.before y = true) ∧ s.civils.Pairwise (fun x y => x.before y = true)

/-- The due lists are in order and agree with every slot but one, which an operation is about to set. -/
structure ListsOkBut (s : State) (id : EntryId) : Prop where
  slot    : ∀ j : EntryId, j ≠ id → SlotOk s j
  ordered : s.Ordered

theorem ListsOk.but {s : State} (h : ListsOk s) (id : EntryId) : ListsOkBut s id where
  slot j _ := h.1 j
  ordered := h.2

theorem ListsOkBut.listsOk {s : State} {id : EntryId} (h : ListsOkBut s id) (hid : SlotOk s id) : ListsOk s :=
  ⟨fun j => if hj : j = id then hj ▸ hid else h.slot j hj, h.ordered⟩

theorem ListsOkBut.of_slot {s t : State} {id : EntryId} (h : ListsOkBut s id)
    (hslot : ∀ j : EntryId, j ≠ id → t.slot j = s.slot j) (hm : ∀ j : EntryId, j ≠ id → t.monoAt j = s.monoAt j)
    (hc : ∀ j : EntryId, j ≠ id → t.civilAt j = s.civilAt j) (ho : t.Ordered) : ListsOkBut t id where
  slot j hj := (h.slot j hj).congr (hslot j hj) (hm j hj) (hc j hj)
  ordered := ho

/-- The entry whose due a position of the MONO due list holds. -/
theorem ListsOk.entry_of_mem_mono {s : State} (h : ListsOk s) {pos : MonoPos} (hpos : pos ∈ s.mono) :
    ∃ e : Entry, (s.slot pos.id).entry = some e ∧ e.ok ∧ e.timing.due = some pos.due := by
  have hat : pos.due ∈ s.monoAt pos.id := List.mem_map.2 ⟨pos, List.mem_filter.2 ⟨hpos, beq_self_eq_true _⟩, rfl⟩
  cases he : (s.slot pos.id).entry with
  | none =>
    rw [((h.1 pos.id).free he).1] at hat
    cases hat
  | some e =>
    obtain ⟨hok, hm, -⟩ := (h.1 pos.id).placed he
    refine ⟨e, rfl, hok, ?_⟩
    rw [← hm, Entry.monoDues] at hat
    split at hat
    · exact Option.mem_toList.1 hat
    · cases hat

/-- The entry whose next match a position of the CIVIL due list holds. -/
theorem ListsOk.entry_of_mem_civils {s : State} (h : ListsOk s) {pos : CivilPos} (hpos : pos ∈ s.civils) :
    ∃ e : Entry, (s.slot pos.id).entry = some e ∧ e.ok ∧ e.timing.isPattern = true := by
  have hat : pos.next ∈ s.civilAt pos.id := List.mem_map.2 ⟨pos, List.mem_filter.2 ⟨hpos, beq_self_eq_true _⟩, rfl⟩
  cases he : (s.slot pos.id).entry with
  | none =>
    rw [((h.1 pos.id).free he).2] at hat
    cases hat
  | some e =>
    obtain ⟨hok, -, hc⟩ := (h.1 pos.id).placed he
    refine ⟨e, rfl, hok, ?_⟩
    rw [← hc, Entry.civilMatches] at hat
    split at hat
    · have hnext : e.timing.next = some pos.next := Option.mem_toList.1 hat
      revert hnext
      cases e.timing <;> simp [Timing.next, Timing.isPattern]
    · cases hat

/-! ### What each operation makes of the positions of an id -/

theorem filter_drop_of_ne {α : Type} (f : α → EntryId) (xs : List α) {id j : EntryId} (h : j ≠ id) :
    (xs.filter (fun x => f x != id)).filter (fun x => f x == j) = xs.filter (fun x => f x == j) := by
  rw [List.filter_filter]
  refine List.filter_congr fun x _ => ?_
  by_cases hx : f x = j <;> simp [hx, h]

theorem filter_drop_self {α : Type} (f : α → EntryId) (xs : List α) (id : EntryId) :
    (xs.filter (fun x => f x != id)).filter (fun x => f x == id) = [] := by
  rw [List.filter_filter]
  exact List.filter_eq_nil_iff.2 fun x _ => by simp

section Positions

variable (s : State) (id j : EntryId)

theorem State.monoAt_unlist : (s.unlist id).monoAt j = if j = id then [] else s.monoAt j := by
  simp only [State.monoAt, State.unlist, State.setLists_mono]
  split
  · next h => rw [h, filter_drop_self, List.map_nil]
  · next h => rw [filter_drop_of_ne _ _ h]

theorem State.civilAt_unlist : (s.unlist id).civilAt j = if j = id then [] else s.civilAt j := by
  simp only [State.civilAt, State.unlist, State.setLists_civils]
  split
  · next h => rw [h, filter_drop_self, List.map_nil]
  · next h => rw [filter_drop_of_ne _ _ h]

theorem State.monoAt_armMono (e : Entry) (due : Nat) (late : Bool) :
    (s.armMono id e due late).monoAt j = if j = id then [due] else s.monoAt j := by
  have hmono : (s.armMono id e due late).mono =
      insertMono { id := id, due := due, late := late } (s.mono.filter (fun x => x.id != id)) := rfl
  rw [State.monoAt, hmono, insertMono_eq]
  split
  · next h =>
    rw [h, filter_orderedInsert_alone (by simp)]
    · rfl
    · intro y hy
      simpa using (List.mem_filter.1 hy).2
  · next h =>
    rw [filter_orderedInsert_of_not (by simpa using fun hid => h hid.symm), filter_drop_of_ne _ _ h]
    rfl

theorem State.civilAt_armCivil (e : Entry) (next : Civil) :
    (s.armCivil id e next).civilAt j = if j = id then [next] else s.civilAt j := by
  have hcivils : (s.armCivil id e next).civils =
      insertCivil { id := id, next := next } (s.civils.filter (fun x => x.id != id)) := rfl
  rw [State.civilAt, hcivils, insertCivil_eq]
  split
  · next h =>
    rw [h, filter_orderedInsert_alone (by simp)]
    · rfl
    · intro y hy
      simpa using (List.mem_filter.1 hy).2
  · next h =>
    rw [filter_orderedInsert_of_not (by simpa using fun hid => h hid.symm), filter_drop_of_ne _ _ h]
    rfl

theorem State.civilAt_armMono (e : Entry) (due : Nat) (late : Bool) :
    (s.armMono id e due late).civilAt j = if j = id then [] else s.civilAt j := s.civilAt_unlist id j

theorem State.monoAt_armCivil (e : Entry) (next : Civil) :
    (s.armCivil id e next).monoAt j = if j = id then [] else s.monoAt j := s.monoAt_unlist id j

theorem State.monoAt_park (e : Entry) (st : EntryState) :
    (s.park id e st).monoAt j = if j = id then [] else s.monoAt j := s.monoAt_unlist id j

theorem State.civilAt_park (e : Entry) (st : EntryState) :
    (s.park id e st).civilAt j = if j = id then [] else s.civilAt j := s.civilAt_unlist id j

theorem State.monoAt_freeEntry {e : Entry} (he : (s.slot id).entry = some e) :
    (s.freeEntry id).monoAt j = if j = id then [] else s.monoAt j := by
  obtain ⟨hmono, -⟩ := State.freeEntry_of_entry he
  rw [← State.monoAt_unlist, State.monoAt, hmono]
  rfl

theorem State.civilAt_freeEntry {e : Entry} (he : (s.slot id).entry = some e) :
    (s.freeEntry id).civilAt j = if j = id then [] else s.civilAt j := by
  obtain ⟨-, hcivils, -⟩ := State.freeEntry_of_entry he
  rw [← State.civilAt_unlist, State.civilAt, hcivils]
  rfl

end Positions

/-! ### The order of the lists -/

section Ordered

variable {s : State} (h : s.Ordered) (id : EntryId)
include h

theorem State.Ordered.unlist : (s.unlist id).Ordered := ⟨h.1.filter _, h.2.filter _⟩

theorem State.Ordered.armMono (e : Entry) (due : Nat) (late : Bool) : (s.armMono id e due late).Ordered :=
  ⟨insertMono_pairwise (h.1.filter _) fun y hy => by simpa using (List.mem_filter.1 hy).2, h.2.filter _⟩

theorem State.Ordered.armCivil (e : Entry) (next : Civil) : (s.armCivil id e next).Ordered :=
  ⟨h.1.filter _, insertCivil_pairwise (h.2.filter _) fun y hy => by simpa using (List.mem_filter.1 hy).2⟩

theorem State.Ordered.park (e : Entry) (st : EntryState) : (s.park id e st).Ordered := h.unlist id

theorem State.Ordered.freeEntry : (s.freeEntry id).Ordered := by
  cases he : (s.slot id).entry with
  | none =>
    have hsame : s.freeEntry id = s := by simp only [State.freeEntry, he]
    exact hsame.symm ▸ h
  | some e =>
    obtain ⟨hmono, hcivils, -⟩ := State.freeEntry_of_entry he
    rw [State.Ordered, hmono, hcivils]
    exact h.unlist id

end Ordered

/-! ### The lists after an operation on the slot -/

section ListsOk

variable {s : State} {id : EntryId} {e : Entry}

theorem ListsOkBut.unlist (h : ListsOkBut s id) : ListsOkBut (s.unlist id) id :=
  h.of_slot (fun _ _ => rfl) (fun j hj => (s.monoAt_unlist id j).trans (if_neg hj))
    (fun j hj => (s.civilAt_unlist id j).trans (if_neg hj)) (h.ordered.unlist id)

theorem ListsOkBut.armMono (h : ListsOkBut s id) (hf : e.timing.fits) (hk : e.timing.isPattern = false) (due : Nat)
    (late : Bool) : ListsOk (s.armMono id e due late) := by
  have hbut : ListsOkBut (s.armMono id e due late) id :=
    h.of_slot (fun j hj => (s.slot_armMono id e due late j).trans (if_neg hj))
      (fun j hj => (s.monoAt_armMono id j e due late).trans (if_neg hj))
      (fun j hj => (s.civilAt_armMono id j e due late).trans (if_neg hj)) (h.ordered.armMono id e due late)
  refine hbut.listsOk (.of_entry (congrArg _ ((s.slot_armMono id e due late id).trans (if_pos rfl))) ?_)
  rw [State.monoAt_armMono, State.civilAt_armMono, if_pos rfl, if_pos rfl]
  exact Entry.placed_armMono hf hk due

theorem ListsOkBut.armCivil (h : ListsOkBut s id) (hf : e.timing.fits) (hk : e.timing.isPattern = true) (next : Civil) :
    ListsOk (s.armCivil id e next) := by
  have hbut : ListsOkBut (s.armCivil id e next) id :=
    h.of_slot (fun j hj => (s.slot_armCivil id e next j).trans (if_neg hj))
      (fun j hj => (s.monoAt_armCivil id j e next).trans (if_neg hj))
      (fun j hj => (s.civilAt_armCivil id j e next).trans (if_neg hj)) (h.ordered.armCivil id e next)
  refine hbut.listsOk (.of_entry (congrArg _ ((s.slot_armCivil id e next id).trans (if_pos rfl))) ?_)
  rw [State.monoAt_armCivil, State.civilAt_armCivil, if_pos rfl, if_pos rfl]
  exact Entry.placed_armCivil hf hk next

theorem ListsOkBut.park (h : ListsOkBut s id) (hf : e.timing.fits) {st : EntryState} (hp : e.timing.mayPark st) :
    ListsOk (s.park id e st) := by
  have hbut : ListsOkBut (s.park id e st) id :=
    h.of_slot (fun j hj => (s.slot_park id j e st).trans (if_neg hj))
      (fun j hj => (s.monoAt_park id j e st).trans (if_neg hj))
      (fun j hj => (s.civilAt_park id j e st).trans (if_neg hj)) (h.ordered.park id e st)
  refine hbut.listsOk (.of_entry (congrArg _ ((s.slot_park id id e st).trans (if_pos rfl))) ?_)
  rw [State.monoAt_park, State.civilAt_park, if_pos rfl, if_pos rfl]
  exact Entry.placed_park hf hp

theorem ListsOkBut.freeEntry (h : ListsOkBut s id) (he : (s.slot id).entry = some e) : ListsOk (s.freeEntry id) := by
  have hbut : ListsOkBut (s.freeEntry id) id :=
    h.of_slot (fun j hj => (s.slot_freeEntry id j).trans (if_neg hj))
      (fun j hj => (s.monoAt_freeEntry id j he).trans (if_neg hj))
      (fun j hj => (s.civilAt_freeEntry id j he).trans (if_neg hj)) (h.ordered.freeEntry id)
  refine hbut.listsOk (.of_free (congrArg _ ((s.slot_freeEntry id id).trans (if_pos rfl))) ?_ ?_)
  · exact (s.monoAt_freeEntry id id he).trans (if_pos rfl)
  · exact (s.civilAt_freeEntry id id he).trans (if_pos rfl)

end ListsOk

/-! ### The held counts and the pool use (R48) -/

theorem State.entriesOf_congr {s t : State} {p : Port}
    (h : ∀ j : EntryId, (t.slot j).entry.map Entry.owner = (s.slot j).entry.map Entry.owner) :
    t.entriesOf p = s.entriesOf p := by
  have hany : ∀ o : Option Entry, o.any (fun e => e.owner == p) = (o.map Entry.owner).any (fun q => q == p) := by
    intro o
    cases o <;> rfl
  refine List.filter_congr fun j _ => ?_
  rw [hany, hany, h]

/-- One entry of the port more. -/
theorem State.entriesOf_perm_cons {s t : State} {p : Port} {id : EntryId}
    (hslot : ∀ j : EntryId, j ≠ id → t.slot j = s.slot j) (hs : id ∉ s.entriesOf p) (ht : id ∈ t.entriesOf p) :
    (t.entriesOf p).Perm (id :: s.entriesOf p) := by
  refine (List.perm_ext_iff_of_nodup (t.nodup_entriesOf p) (List.nodup_cons.2 ⟨hs, s.nodup_entriesOf p⟩)).2 fun j => ?_
  by_cases hj : j = id
  · simp [hj, ht]
  · simp [hj, State.mem_entriesOf, hslot j hj]

theorem CountsOk.of_same {s t : State} (h : CountsOk s) (hheld : t.held = s.held) (hpool : t.poolUse = s.poolUse)
    (hown : ∀ j : EntryId, (t.slot j).entry.map Entry.owner = (s.slot j).entry.map Entry.owner) : CountsOk t := by
  have hby : ∀ q : Port, t.heldBy q = s.heldBy q := fun q => by rw [State.heldBy, hheld, State.heldBy]
  obtain ⟨hcount, hsum, hle⟩ := h
  refine ⟨fun q => ?_, ?_, hpool ▸ hle⟩
  · rw [hby, State.entriesOf_congr hown, hcount]
  · rw [hby, hby, hby, hby, hpool, hsum]

/-- The owners of all slots are as before when one is set to an entry of the same owner. -/
theorem owners_of_slot {s t : State} {id : EntryId} {x : Slot} {e₀ e : Entry}
    (hslot : ∀ j : EntryId, t.slot j = if j = id then x else s.slot j) (he₀ : (s.slot id).entry = some e₀)
    (hx : x.entry = some e) (ho : e.owner = e₀.owner) (j : EntryId) :
    (t.slot j).entry.map Entry.owner = (s.slot j).entry.map Entry.owner := by
  rw [hslot]
  split
  · next h => rw [h, hx, he₀, Option.map_some, Option.map_some, ho]
  · rfl

section CountsOk

variable {s : State} {id : EntryId} {e₀ e : Entry}

theorem CountsOk.armMono (h : CountsOk s) (he₀ : (s.slot id).entry = some e₀) (ho : e.owner = e₀.owner) (due : Nat)
    (late : Bool) : CountsOk (s.armMono id e due late) :=
  h.of_same rfl rfl (owners_of_slot (s.slot_armMono id e due late) he₀ rfl ho)

theorem CountsOk.armCivil (h : CountsOk s) (he₀ : (s.slot id).entry = some e₀) (ho : e.owner = e₀.owner) (next : Civil) :
    CountsOk (s.armCivil id e next) :=
  h.of_same rfl rfl (owners_of_slot (s.slot_armCivil id e next) he₀ rfl ho)

theorem CountsOk.park (h : CountsOk s) (he₀ : (s.slot id).entry = some e₀) (ho : e.owner = e₀.owner) (st : EntryState) :
    CountsOk (s.park id e st) :=
  h.of_same rfl rfl (owners_of_slot (fun j => s.slot_park id j e st) he₀ rfl ho)

theorem CountsOk.freeEntry (h : CountsOk s) (he : (s.slot id).entry = some e) : CountsOk (s.freeEntry id) := by
  obtain ⟨hcount, hsum, hle⟩ := h
  obtain ⟨hown, hothers, hpool⟩ := State.freeEntry_heldSet he
  have hslot : ∀ j : EntryId, j ≠ id → s.slot j = (s.freeEntry id).slot j := fun j hj =>
    ((s.slot_freeEntry id j).trans (if_neg hj)).symm
  have hgone : ∀ q : Port, id ∉ (s.freeEntry id).entriesOf q := by simp [State.mem_entriesOf, State.slot_freeEntry]
  have hby : ∀ q : Port, (s.freeEntry id).heldBy q ≤ s.heldBy q := fun q => by
    by_cases hq : q = e.owner
    · rw [hq, hown]
      exact Nat.sub_le _ _
    · exact (hothers q hq).le
  refine ⟨fun q => ?_, hpool, ?_⟩
  · by_cases hq : q = e.owner
    · have hlen := (State.entriesOf_perm_cons hslot (hgone q) ((s.mem_entriesOf q id).2 ⟨e, he, hq.symm⟩)).length_eq
      rw [List.length_cons, ← hcount, hq] at hlen
      rw [hq, hown, hlen, Nat.add_sub_cancel]
    · have hsame : (s.freeEntry id).entriesOf q = s.entriesOf q := by
        refine List.filter_congr fun j _ => ?_
        by_cases hj : j = id
        · simp [hj, State.slot_freeEntry, he, Ne.symm hq]
        · rw [hslot j hj]
      rw [hothers q hq, hcount, hsame]
  · have h0 := hby 0
    have h1 := hby 1
    have h2 := hby 2
    have h3 := hby 3
    omega

theorem CountsOk.allocate (h : CountsOk s) (he : (s.slot id).entry = none)
    (hq : s.heldBy e.owner < 8 ∨ s.poolUse < 32) : CountsOk (s.allocate id e) := by
  obtain ⟨hcount, hsum, hle⟩ := h
  obtain ⟨hown, hothers, hpool⟩ := s.allocate_heldSet id e
  have hslot : ∀ j : EntryId, j ≠ id → (s.allocate id e).slot j = s.slot j := fun j hj =>
    (s.slot_allocate id e j).trans (if_neg hj)
  refine ⟨fun q => ?_, hpool, ?_⟩
  · by_cases hqo : q = e.owner
    · have hlen := (State.entriesOf_perm_cons (p := q) hslot (by simp [State.mem_entriesOf, he])
        (by simp [State.mem_entriesOf, State.slot_allocate, hqo])).length_eq
      rw [hlen, List.length_cons, ← hcount, hqo, hown]
    · have hsame : (s.allocate id e).entriesOf q = s.entriesOf q := by
        refine List.filter_congr fun j _ => ?_
        by_cases hj : j = id
        · simp [hj, State.slot_allocate, he, Ne.symm hqo]
        · rw [hslot j hj]
      rw [hothers q hqo, hcount, hsame]
  · have hone : ∀ q : Port, (s.allocate id e).heldBy q = if q = e.owner then s.heldBy q + 1 else s.heldBy q := fun q => by
      split
      · next hqo => rw [hqo, hown]
      · next hqo => exact hothers q hqo
    rw [hpool, hone, hone, hone, hone]
    rw [hsum] at hq hle
    generalize e.owner = p at hq ⊢
    fin_cases p <;> simp at hq ⊢ <;> omega

end CountsOk

end Sys2Proof.Machine
end

section
/-! SUPPORT. The schedule invariant of the operations that requests, firings and changes of civil time are made of (R43 to
R62, R71 to R83, R94 to R105, R133, R137).
-/

namespace Sys2Proof.Machine

/-! ### The invariant -/

/-- The schedule table, its counts and the due lists. -/
structure TableOk (s : State) : Prop where
  lists  : ListsOk s
  counts : CountsOk s

/-- The same, but for the slot that an operation is about to set. -/
structure TableOkBut (s : State) (id : EntryId) : Prop where
  lists  : ListsOkBut s id
  counts : CountsOk s

/-- The table, and what civil time has to do with it. -/
structure ScheduleOk (s : State) : Prop where
  table    : TableOk s
  validity : ValidityOk s

theorem TableOk.but {s : State} (h : TableOk s) (id : EntryId) : TableOkBut s id := ⟨h.lists.but id, h.counts⟩

/-- No entry in the slot is DORMANT. -/
def AwakeAt (s : State) (id : EntryId) : Prop := ∀ e : Entry, (s.slot id).entry = some e → e.state ≠ .dormant

theorem validityOk_iff (s : State) :
    ValidityOk s ↔ (s.civil = none → s.civils = []) ∧ (s.civil ≠ none → ∀ id : EntryId, AwakeAt s id) := by
  unfold ValidityOk
  cases s.civil <;> simp [AwakeAt]

theorem ScheduleOk.of_unset {s : State} (h : TableOk s) (hc : s.civil = none) (hl : s.civils = []) : ScheduleOk s :=
  ⟨h, (validityOk_iff s).2 ⟨fun _ => hl, fun hn => absurd hc hn⟩⟩

theorem ScheduleOk.of_valid {s : State} (h : TableOk s) (hc : s.civil ≠ none) (hawake : ∀ id : EntryId, AwakeAt s id) :
    ScheduleOk s :=
  ⟨h, (validityOk_iff s).2 ⟨fun hn => absurd hn hc, fun _ => hawake⟩⟩

/-- The fields of the state that the invariant reads, the rest at reset. -/
def State.schedule (s : State) : State :=
  { State.reset with
    civil := s.civil, slots := s.slots, held := s.held, poolUse := s.poolUse, mono := s.mono, civils := s.civils }

theorem State.schedule_eq {s t : State} (hcivil : t.civil = s.civil) (hslots : t.slots = s.slots) (hheld : t.held = s.held)
    (hpool : t.poolUse = s.poolUse) (hmono : t.mono = s.mono) (hcivils : t.civils = s.civils) :
    t.schedule = s.schedule := by
  simp only [State.schedule, hcivil, hslots, hheld, hpool, hmono, hcivils]

theorem ScheduleOk.of_schedule {s t : State} (hs : ScheduleOk s) (h : t.schedule = s.schedule) : ScheduleOk t := by
  have ht : ScheduleOk t.schedule :=
    h.symm ▸ (⟨⟨hs.table.lists, hs.table.counts⟩, hs.validity⟩ : ScheduleOk s.schedule)
  exact ⟨⟨ht.table.lists, ht.table.counts⟩, ht.validity⟩

theorem TableOkBut.of_schedule {s t : State} {id : EntryId} (hs : TableOkBut s id) (h : t.schedule = s.schedule) :
    TableOkBut t id := by
  have ht : TableOkBut t.schedule id :=
    h.symm ▸ (⟨⟨hs.lists.slot, hs.lists.ordered⟩, hs.counts⟩ : TableOkBut s.schedule id)
  exact ⟨⟨ht.lists.slot, ht.lists.ordered⟩, ht.counts⟩

theorem TableOkBut.offer {s : State} {id : EntryId} (h : TableOkBut s id) (p : Port) (r : Record) :
    TableOkBut (s.offer p r) id :=
  h.of_schedule rfl

theorem State.schedule_offerEach (s : State) (f : Port → List Record) : (s.offerEach f).schedule = s.schedule := by
  rw [State.offerEach_blocks]
  rfl

theorem ScheduleOk.offerEach {s : State} (h : ScheduleOk s) (f : Port → List Record) : ScheduleOk (s.offerEach f) :=
  h.of_schedule (s.schedule_offerEach f)

/-! ### Civil time and the table -/

/-- What an operation on one slot asks of civil time. -/
theorem ValidityOk.of_slot {s t : State} {id : EntryId} {x : Slot} (h : ValidityOk s)
    (hslot : ∀ j : EntryId, t.slot j = if j = id then x else s.slot j) (hcivil : t.civil = s.civil)
    (hcivils : s.civil = none → s.civils = [] → t.civils = [])
    (hx : s.civil ≠ none → ∀ e : Entry, x.entry = some e → e.state ≠ .dormant) : ValidityOk t := by
  rw [validityOk_iff] at h ⊢
  obtain ⟨hunset, hvalid⟩ := h
  rw [hcivil]
  refine ⟨fun hc => hcivils hc (hunset hc), fun hc j => ?_⟩
  by_cases hj : j = id
  · intro e he
    rw [hslot, if_pos hj] at he
    exact hx hc e he
  · intro e he
    rw [hslot, if_neg hj] at he
    exact hvalid hc j e he

section ValidityOk

variable {s : State} (h : ValidityOk s) (id : EntryId) (e : Entry)
include h

theorem ValidityOk.armMono (due : Nat) (late : Bool) : ValidityOk (s.armMono id e due late) := by
  refine h.of_slot (s.slot_armMono id e due late) rfl (fun _ hl => ?_) (fun _ e' he' => ?_)
  · exact (congrArg (List.filter _) hl).trans List.filter_nil
  · cases he'
    exact nofun

theorem ValidityOk.armCivil (next : Civil) (hc : s.civil ≠ none) : ValidityOk (s.armCivil id e next) := by
  refine h.of_slot (s.slot_armCivil id e next) rfl (fun hn => absurd hn hc) (fun _ e' he' => ?_)
  cases he'
  exact nofun

theorem ValidityOk.park {st : EntryState} (hst : s.civil ≠ none → st ≠ .dormant) : ValidityOk (s.park id e st) := by
  refine h.of_slot (fun j => s.slot_park id j e st) rfl (fun _ hl => ?_) (fun hc e' he' => ?_)
  · exact (congrArg (List.filter _) hl).trans List.filter_nil
  · cases he'
    exact hst hc

theorem ValidityOk.freeEntry : ValidityOk (s.freeEntry id) := by
  cases he : (s.slot id).entry with
  | none =>
    have hsame : s.freeEntry id = s := by simp only [State.freeEntry, he]
    exact hsame.symm ▸ h
  | some e₀ =>
    obtain ⟨-, hcivils, -⟩ := State.freeEntry_of_entry he
    refine h.of_slot (s.slot_freeEntry id) (s.freeEntry_civil id) (fun _ hl => ?_) (fun _ e' he' => nomatch he')
    rw [hcivils, hl, List.filter_nil]

end ValidityOk

/-! ### The operations on one slot -/

/-- The slot holds an entry of the same owner, its fields in their ranges. -/
structure Stands (s : State) (id : EntryId) (e : Entry) : Prop where
  owner : ∃ e₀ : Entry, (s.slot id).entry = some e₀ ∧ e.owner = e₀.owner
  fits  : e.timing.fits

section TableOk

variable {s : State} {id : EntryId} {e : Entry} (h : TableOkBut s id)

section
variable (he : Stands s id e)
include h he

theorem TableOkBut.armMono (hk : e.timing.isPattern = false) (due : Nat) (late : Bool) :
    TableOk (s.armMono id e due late) := by
  obtain ⟨⟨e₀, he₀, ho⟩, hf⟩ := he
  exact ⟨h.lists.armMono hf hk due late, h.counts.armMono he₀ ho due late⟩

theorem TableOkBut.armCivil (hk : e.timing.isPattern = true) (next : Civil) : TableOk (s.armCivil id e next) := by
  obtain ⟨⟨e₀, he₀, ho⟩, hf⟩ := he
  exact ⟨h.lists.armCivil hf hk next, h.counts.armCivil he₀ ho next⟩

theorem TableOkBut.park {st : EntryState} (hp : e.timing.mayPark st) : TableOk (s.park id e st) := by
  obtain ⟨⟨e₀, he₀, ho⟩, hf⟩ := he
  exact ⟨h.lists.park hf hp, h.counts.park he₀ ho st⟩

end

section
include h

theorem TableOkBut.freeEntry (he : (s.slot id).entry = some e) : TableOk (s.freeEntry id) :=
  ⟨h.lists.freeEntry he, h.counts.freeEntry he⟩

theorem TableOkBut.endEntry (he : (s.slot id).entry = some e) (reason : EndReason) : TableOk (s.endEntry id reason) := by
  rw [State.endEntry_of_entry reason he]
  exact (h.offer _ _).freeEntry he

theorem TableOkBut.placeAt (he : Stands s id e) (hk : e.timing.isPattern = true) (found : Option Civil) :
    TableOk (s.placeAt id e found) := by
  cases found with
  | some m => exact h.armCivil he hk m
  | none =>
    obtain ⟨⟨e₀, he₀, -⟩, -⟩ := he
    exact h.endEntry he₀ _

end

end TableOk

theorem ValidityOk.endEntry {s : State} (h : ValidityOk s) (id : EntryId) (reason : EndReason) :
    ValidityOk (s.endEntry id reason) := by
  unfold State.endEntry
  split
  · exact h
  · exact ValidityOk.freeEntry (s := s.offer _ _) h id

theorem ValidityOk.placeAt {s : State} (h : ValidityOk s) (hc : s.civil ≠ none) (id : EntryId) (e : Entry)
    (found : Option Civil) : ValidityOk (s.placeAt id e found) := by
  cases found with
  | some m => exact h.armCivil id e m hc
  | none => exact h.endEntry id _

theorem TableOk.freeEntry {s : State} (h : TableOk s) (id : EntryId) : TableOk (s.freeEntry id) := by
  cases he : (s.slot id).entry with
  | none =>
    have hsame : s.freeEntry id = s := by simp only [State.freeEntry, he]
    exact hsame.symm ▸ h
  | some e => exact (h.but id).freeEntry he

theorem TableOk.endEntry {s : State} (h : TableOk s) (id : EntryId) (reason : EndReason) :
    TableOk (s.endEntry id reason) := by
  cases he : (s.slot id).entry with
  | none =>
    have hsame : s.endEntry id reason = s := by simp only [State.endEntry, he]
    exact hsame.symm ▸ h
  | some e => exact (h.but id).endEntry he reason

theorem ScheduleOk.freeEntry {s : State} (h : ScheduleOk s) (id : EntryId) : ScheduleOk (s.freeEntry id) :=
  ⟨h.table.freeEntry id, h.validity.freeEntry id⟩

theorem ScheduleOk.endEntry {s : State} (h : ScheduleOk s) (id : EntryId) (reason : EndReason) :
    ScheduleOk (s.endEntry id reason) :=
  ⟨h.table.endEntry id reason, h.validity.endEntry id reason⟩

/-- An entry that stands in its slot. -/
theorem TableOk.stands {s : State} {id : EntryId} {e : Entry} (h : TableOk s) (he : (s.slot id).entry = some e) :
    Stands s id e :=
  ⟨⟨e, he, rfl⟩, ((h.lists.1 id).placed he).ok.fits⟩

/-! ### Firings (R71 to R77) -/

section Fire

variable {s : State} {id : EntryId} {e : Entry} {intended : Intended} {late ends : Bool}

theorem State.schedule_askLine (s : State) (a : Option LineAction) (p : Port) (src : Source) :
    (s.askLine a p src).1.schedule = s.schedule := by
  unfold State.askLine
  split
  · rfl
  · split
    · rfl
    · split <;> rfl

/-- A firing up to its record takes the entry out of its list, and changes nothing else of the schedule. -/
theorem State.schedule_fire : (s.fire id e intended late ends).state.schedule = (s.unlist id).schedule := by
  unfold State.fire
  dsimp only
  split
  · exact State.schedule_askLine _ _ _ _
  · exact State.schedule_askLine _ _ _ _

/-- The entry that a firing leaves: its remaining count consumed, its carried skips as they were or cleared. -/
theorem State.fire_entry (hf : e.timing.fits) :
    ∃ n ≤ 255, (s.fire id e intended late ends).entry =
      { e with remaining := consumeRemaining e.remaining, timing := e.timing.withSkips n } := by
  unfold State.fire
  dsimp only
  split
  · exact ⟨0, by omega, rfl⟩
  · exact ⟨e.timing.skips, hf.skips_le, by rw [e.timing.withSkips_skips]⟩

theorem State.fire_tableOkBut (h : TableOkBut s id) : TableOkBut (s.fire id e intended late ends).state id :=
  (⟨h.lists.unlist, h.counts⟩ : TableOkBut (s.unlist id) id).of_schedule State.schedule_fire

theorem State.fire_validityOk (h : ValidityOk s) : ValidityOk (s.fire id e intended late ends).state := by
  have hunlisted : ValidityOk (s.unlist id) := by
    rw [validityOk_iff] at h ⊢
    exact ⟨fun hc => (congrArg (List.filter _) (h.1 hc)).trans List.filter_nil, h.2⟩
  have hs : ValidityOk (s.fire id e intended late ends).state.schedule := by
    rw [State.schedule_fire]
    exact hunlisted
  exact hs

theorem State.fire_stands (he : Stands s id e) :
    Stands (s.fire id e intended late ends).state id (s.fire id e intended late ends).entry := by
  obtain ⟨⟨e₀, he₀, ho⟩, hf⟩ := he
  obtain ⟨n, hn, hentry⟩ := State.fire_entry (s := s) (id := id) (intended := intended) (late := late) (ends := ends) hf
  rw [hentry]
  exact ⟨⟨e₀, by rw [State.fire_slot, he₀], ho⟩, hf.withSkips hn⟩

theorem State.fire_isPattern (hf : e.timing.fits) :
    (s.fire id e intended late ends).entry.timing.isPattern = e.timing.isPattern := by
  obtain ⟨n, -, hentry⟩ := State.fire_entry (s := s) (id := id) (intended := intended) (late := late) (ends := ends) hf
  rw [hentry]
  exact e.timing.isPattern_withSkips n

end Fire

/-- Skips added saturate, so that the entry stands as before. -/
theorem Stands.addSkips {s : State} {id : EntryId} {e : Entry} (h : Stands s id e) (n : Nat) :
    Stands s id (e.addSkips n) :=
  ⟨h.owner, h.fits.withSkips (Nat.min_le_left _ _)⟩

theorem Entry.isPattern_addSkips (e : Entry) (n : Nat) : (e.addSkips n).timing.isPattern = e.timing.isPattern :=
  e.timing.isPattern_withSkips _

/-- R78 to R83: the firing of a position of the MONO due list. -/
theorem State.fireMono_scheduleOk {s : State} (h : ScheduleOk s) {pos : MonoPos} (hpos : pos ∈ s.mono) :
    ScheduleOk (s.fireMono pos) := by
  obtain ⟨e, he, hok, hdue⟩ := h.table.lists.entry_of_mem_mono hpos
  have hstands := h.table.stands he
  have hbut : ∀ {e' i l b}, TableOkBut (s.fire pos.id e' i l b).state pos.id := State.fire_tableOkBut (h.table.but pos.id)
  have hvalid : ∀ {e' i l b}, ValidityOk (s.fire pos.id e' i l b).state := State.fire_validityOk h.validity
  have hslot : ∀ {e' i l b}, ((s.fire pos.id e' i l b).state.slot pos.id).entry = some e := by
    intros
    rw [State.fire_slot, he]
  cases ht : e.timing with
  | once due =>
    rw [State.fireMono_once he ht]
    exact ⟨hbut.freeEntry hslot, hvalid.freeEntry _⟩
  | periodic due first period skips =>
    have hkind : e.timing.isPattern = false := by rw [ht]; rfl
    obtain ⟨counted, hcounted, hst, hk⟩ : ∃ counted,
        counted = (if pos.late then e.addSkips (passedGrid s.runTime pos.due first period) else e) ∧
          Stands s pos.id counted ∧ counted.timing.isPattern = false := by
      refine ⟨_, rfl, ?_⟩
      split
      · exact ⟨hstands.addSkips _, (e.isPattern_addSkips _).trans hkind⟩
      · exact ⟨hstands, hkind⟩
    rw [State.fireMono_periodic he ht rfl, ← hcounted]
    split
    · exact ⟨hbut.freeEntry hslot, hvalid.freeEntry _⟩
    · exact ⟨hbut.armMono (State.fire_stands hst) ((State.fire_isPattern hst.fits).trans hk) _ _, hvalid.armMono _ _ _ _⟩
  | pattern pat next policy skips =>
    rw [ht] at hdue
    cases hdue
  | afterCapture input delay rearm due =>
    rw [State.fireMono_afterCapture he ht rfl]
    split
    · exact ⟨hbut.freeEntry hslot, hvalid.freeEntry _⟩
    · split
      · obtain ⟨n, -, hentry⟩ := State.fire_entry (s := s) (id := pos.id) (intended := .run pos.due) (late := pos.late)
          (ends := !rearm) hstands.fits
        refine ⟨hbut.park (State.fire_stands hstands) ?_, hvalid.park _ _ fun _ => nofun⟩
        rw [hentry, ht]
        trivial
      · exact ⟨(hbut.offer _ _).freeEntry hslot, ValidityOk.freeEntry (s := State.offer _ _ _) hvalid _⟩

end Sys2Proof.Machine
end

section
/-! SUPPORT. The schedule invariant at changes of civil time, at the requests and events that reach the schedule, and at
every step (R42 to R62, R94 to R105, R133, R137).
-/

namespace Sys2Proof.Machine

/-! ### One PATTERN entry placed anew (R95, R99 to R105) -/

/-- The slot holds a PATTERN entry, if any. -/
def PatternAt (s : State) (id : EntryId) : Prop :=
  ∀ e : Entry, (s.slot id).entry = some e → e.timing.isPattern = true

/-- A slot that is left, freed or given a PATTERN entry. -/
theorem PatternAt.of_slot {s t : State} {id : EntryId} {x : Slot}
    (hslot : ∀ j : EntryId, t.slot j = if j = id then x else s.slot j)
    (hx : ∀ e : Entry, x.entry = some e → e.timing.isPattern = true) {j : EntryId} (h : PatternAt s j) : PatternAt t j := by
  intro e he
  rw [hslot] at he
  split at he
  · exact hx e he
  · exact h e he

theorem PatternAt.freeEntry {s : State} {j : EntryId} (h : PatternAt s j) (id : EntryId) : PatternAt (s.freeEntry id) j :=
  .of_slot (s.slot_freeEntry id) (fun _ he => nomatch he) h

theorem PatternAt.placeAt {s : State} {id j : EntryId} {e : Entry} (h : PatternAt s j) (hk : e.timing.isPattern = true)
    (found : Option Civil) : PatternAt (s.placeAt id e found) j := by
  cases found with
  | some m =>
    refine .of_slot (s.slot_armCivil id e m) (fun e' he' => ?_) h
    cases he'
    exact (e.timing.isPattern_withNext m).trans hk
  | none =>
    cases he : (s.slot id).entry with
    | none =>
      have hsame : s.placeAt id e none = s := by simp only [State.placeAt, State.endEntry, he]
      exact hsame.symm ▸ h
    | some e₀ =>
      rw [State.placeAt, State.endEntry_of_entry _ he]
      exact PatternAt.freeEntry (s := s.offer _ _) h id

/-- The invariant with civil time VALID, and the slots that the positions still to be taken stand for. -/
structure Placing (s : State) (ids : EntryId → Prop) : Prop where
  schedule : ScheduleOk s
  valid    : s.civil ≠ none
  pattern  : ∀ id : EntryId, ids id → PatternAt s id

section Placing

variable {s : State} {ids : EntryId → Prop} (h : Placing s ids) {id : EntryId} {e : Entry}
include h

theorem Placing.placeAt (he : Stands s id e) (hk : e.timing.isPattern = true) (found : Option Civil) :
    Placing (s.placeAt id e found) ids where
  schedule := ⟨(h.schedule.table.but id).placeAt he hk found, h.schedule.validity.placeAt h.valid id e found⟩
  valid := by rw [State.placeAt_civil]; exact h.valid
  pattern j hj := (h.pattern j hj).placeAt hk found

/-- A firing is followed by the entry's end, or by its place at the match found. -/
theorem Placing.fire (he : Stands s id e) (hk : e.timing.isPattern = true) (intended : Intended) (late ends : Bool)
    (found : Option Civil) {f : Fired} (hf : f = s.fire id e intended late ends) :
    Placing (if f.final then f.state.freeEntry id else f.state.placeAt id f.entry found) ids := by
  have hstands : Stands f.state id f.entry := hf ▸ State.fire_stands he
  obtain ⟨⟨e₀, he₀, -⟩, hfits⟩ := he
  have hbut : TableOkBut f.state id := hf ▸ State.fire_tableOkBut (h.schedule.table.but id)
  have hvalidity : ValidityOk f.state := hf ▸ State.fire_validityOk h.schedule.validity
  have hvalid : f.state.civil ≠ none := by
    rw [hf, State.fire_civil]
    exact h.valid
  have hpattern : ∀ j, ids j → PatternAt f.state j := fun j hj e' he' => by
    rw [hf, State.fire_slot] at he'
    exact h.pattern j hj e' he'
  have hkind : f.entry.timing.isPattern = true := by
    rw [hf, State.fire_isPattern hfits]
    exact hk
  split
  · have hslot : (f.state.slot id).entry = some e₀ := by rw [hf, State.fire_slot, he₀]
    refine ⟨⟨hbut.freeEntry hslot, hvalidity.freeEntry id⟩, ?_, fun j hj => (hpattern j hj).freeEntry id⟩
    rw [State.freeEntry_civil]
    exact hvalid
  · refine ⟨⟨hbut.placeAt hstands hkind found, hvalidity.placeAt hvalid id _ found⟩, ?_,
      fun j hj => (hpattern j hj).placeAt hkind found⟩
    rw [State.placeAt_civil]
    exact hvalid

theorem Placing.unlist_free (he : (s.slot id).entry = none) : Placing (s.unlist id) ids where
  schedule := by
    obtain ⟨hm, hc⟩ := (h.schedule.table.lists.1 id).free he
    have hmono : (s.unlist id).mono = s.mono := List.filter_eq_self.2 fun x hx => by
      rw [State.monoAt, List.map_eq_nil_iff, List.filter_eq_nil_iff] at hm
      simpa using hm x hx
    have hcivils : (s.unlist id).civils = s.civils := List.filter_eq_self.2 fun x hx => by
      rw [State.civilAt, List.map_eq_nil_iff, List.filter_eq_nil_iff] at hc
      simpa using hc x hx
    exact h.schedule.of_schedule (State.schedule_eq (t := s.unlist id) rfl rfl rfl rfl hmono hcivils)
  valid := h.valid
  pattern := h.pattern

/-- R99: the firing of a position of the CIVIL due list. -/
theorem Placing.fireCivil {pos : CivilPos} (hpos : ids pos.id) : Placing (s.fireCivil pos) ids := by
  cases he : (s.slot pos.id).entry with
  | none =>
    have hdrop : s.fireCivil pos = s.unlist pos.id := by simp only [State.fireCivil, he]
    exact hdrop.symm ▸ h.unlist_free he
  | some e =>
    have hk := h.pattern _ hpos e he
    obtain ⟨pat, next, policy, skips, ht⟩ := e.timing.isPattern_iff.1 hk
    rw [State.fireCivil_pattern he ht rfl]
    exact h.fire (h.schedule.table.stands he) hk _ _ _ _ rfl

/-- R102 to R104: one entry taken at a forward step. -/
theorem Placing.passOver {pos : CivilPos} (hpos : ids pos.id) (new : Civil) : Placing (s.passOver new pos) ids := by
  cases he : (s.slot pos.id).entry with
  | none =>
    have hdrop : s.passOver new pos = s.unlist pos.id := by simp only [State.passOver, he]
    exact hdrop.symm ▸ h.unlist_free he
  | some e =>
    have hk := h.pattern _ hpos e he
    have hskipped : ∀ n, Stands s pos.id (e.addSkips n) ∧ (e.addSkips n).timing.isPattern = true := fun n =>
      ⟨(h.schedule.table.stands he).addSkips n, (e.isPattern_addSkips n).trans hk⟩
    obtain ⟨pat, next, policy, skips, ht⟩ := e.timing.isPattern_iff.1 hk
    cases policy with
    | catchUp =>
      rw [State.passOver_catchUp he ht new rfl]
      exact h.fire (hskipped _).1 (hskipped _).2 _ _ _ _ rfl
    | skip =>
      rw [State.passOver_skip he ht]
      exact h.placeAt (hskipped _).1 (hskipped _).2 _

/-- R105: one entry placed anew at a backward step. -/
theorem Placing.placeBack {pos : CivilPos} (hpos : ids pos.id) (new : Civil) : Placing (s.placeBack new pos) ids := by
  cases he : (s.slot pos.id).entry with
  | none =>
    have hdrop : s.placeBack new pos = s.unlist pos.id := by simp only [State.placeBack, he]
    exact hdrop.symm ▸ h.unlist_free he
  | some e =>
    have hk := h.pattern _ hpos e he
    obtain ⟨pat, next, policy, skips, ht⟩ := e.timing.isPattern_iff.1 hk
    rw [State.placeBack_pattern he ht]
    exact h.placeAt (h.schedule.table.stands he) hk _

end Placing

/-- The positions of the CIVIL due list stand for PATTERN entries. -/
theorem ScheduleOk.placing {s : State} (h : ScheduleOk s) (hc : s.civil ≠ none) :
    Placing s (fun id => ∃ x ∈ s.civils, x.id = id) where
  schedule := h
  valid := hc
  pattern id := by
    rintro ⟨x, hx, rfl⟩ e he
    obtain ⟨e', he', -, hk⟩ := h.table.lists.entry_of_mem_civils hx
    rw [he', Option.some.injEq] at he
    exact he ▸ hk

/-- What every element of a list keeps, its fold keeps. -/
theorem foldl_keeps {α β : Type} {f : β → α → β} {P : β → Prop} (xs : List α) {s : β} (hs : P s)
    (h : ∀ s x, x ∈ xs → P s → P (f s x)) : P (xs.foldl f s) := by
  induction xs generalizing s with
  | nil => exact hs
  | cons x xs ih => exact ih (h s x (by simp) hs) fun s y hy => h s y (by simp [hy])

/-- R102 to R105: a step of civil time. -/
theorem State.stepPatterns_scheduleOk {s : State} (h : ScheduleOk s) (hc : s.civil ≠ none) (old new : Civil) :
    ScheduleOk (s.stepPatterns old new) := by
  have hplacing := h.placing hc
  unfold State.stepPatterns
  split
  · exact (foldl_keeps (P := fun t => Placing t _) _ hplacing fun t x hx ht =>
      ht.passOver ⟨x, (List.mem_filter.1 hx).1, rfl⟩ new).schedule
  · split
    · exact (foldl_keeps (P := fun t => Placing t _) _ hplacing fun t x hx ht => ht.placeBack ⟨x, hx, rfl⟩ new).schedule
    · exact h

/-- R27, R29, R30: a move of civil time that was VALID. -/
theorem State.moveCivil_scheduleOk {s : State} (h : ScheduleOk s) (hc : s.civil ≠ none) (old new : Civil)
    (cancelled : Option PendingStep) (reason : ChangeReason) (p : Port) (offset : Int) :
    ScheduleOk (s.moveCivil old new cancelled reason p offset) := by
  have hset : ScheduleOk (s.setCivilTime (some new) none none) :=
    ⟨⟨h.table.lists, h.table.counts⟩,
      (validityOk_iff _).2 ⟨nofun, fun _ => ((validityOk_iff s).1 h.validity).2 hc⟩⟩
  rw [State.moveCivil]
  refine (State.stepPatterns_scheduleOk (hset.offerEach _) ?_ old new).offerEach _
  rw [State.offerEach_civil]
  exact nofun

/-! ### The first set of civil time (R26, R100) -/

theorem AwakeAt.of_slot {s t : State} {id : EntryId} {x : Slot}
    (hslot : ∀ j : EntryId, t.slot j = if j = id then x else s.slot j)
    (hx : ∀ e : Entry, x.entry = some e → e.state ≠ .dormant) {j : EntryId} (h : j = id ∨ AwakeAt s j) : AwakeAt t j := by
  intro e he
  rw [hslot] at he
  split at he
  · exact hx e he
  · next hj => exact h.resolve_left hj e he

theorem AwakeAt.placeAt {s : State} {id j : EntryId} {e e₀ : Entry} (he₀ : (s.slot id).entry = some e₀)
    (found : Option Civil) (h : j = id ∨ AwakeAt s j) : AwakeAt (s.placeAt id e found) j := by
  cases found with
  | some m =>
    refine .of_slot (s.slot_armCivil id e m) (fun e' he' => ?_) h
    cases he'
    exact nofun
  | none =>
    rw [State.placeAt, State.endEntry_of_entry _ he₀]
    exact .of_slot (State.slot_freeEntry (s.offer _ _) id) (fun _ he => nomatch he) h

/-- R100: a DORMANT entry is awake when it has been taken, and the others are as before. -/
theorem State.wake_tableOk {s : State} (h : TableOk s) (now : Civil) (id : EntryId) :
    TableOk (s.wake now id) ∧ ∀ j : EntryId, j = id ∨ AwakeAt s j → AwakeAt (s.wake now id) j := by
  by_cases hd : ∃ e : Entry, (s.slot id).entry = some e ∧ e.state = .dormant
  · obtain ⟨e, he, hd⟩ := hd
    have hk := ((h.lists.1 id).placed he).ok.isPattern_of_dormant hd
    obtain ⟨pat, next, policy, skips, ht⟩ := e.timing.isPattern_iff.1 hk
    rw [State.wake_dormant now he hd ht]
    exact ⟨(h.but id).placeAt (h.stands he) hk _, fun j hj => AwakeAt.placeAt he _ hj⟩
  · have hawake : AwakeAt s id := fun e he hs => hd ⟨e, he, hs⟩
    rw [State.wake_other now fun e he => Or.inl (hawake e he)]
    exact ⟨h, fun j hj => hj.elim (fun hji => hji ▸ hawake) fun hj => hj⟩

theorem State.foldl_wake_tableOk (now : Civil) (ids : List EntryId) {s : State} (h : TableOk s) :
    TableOk (ids.foldl (fun t i => t.wake now i) s) ∧
      ∀ j : EntryId, j ∈ ids ∨ AwakeAt s j → AwakeAt (ids.foldl (fun t i => t.wake now i) s) j := by
  induction ids generalizing s with
  | nil => exact ⟨h, fun j hj => hj.resolve_left (by simp)⟩
  | cons id ids ih =>
    obtain ⟨hwake, hawake⟩ := State.wake_tableOk h now id
    obtain ⟨hrest, hawake'⟩ := ih hwake
    refine ⟨hrest, fun j hj => hawake' j ?_⟩
    rcases hj with hj | hj
    · rcases List.mem_cons.1 hj with rfl | hj
      · exact Or.inr (hawake j (Or.inl rfl))
      · exact Or.inl hj
    · exact Or.inr (hawake j (Or.inr hj))

theorem State.wakePatterns_tableOk {s : State} (h : TableOk s) (now : Civil) :
    TableOk (s.wakePatterns now) ∧ ∀ j : EntryId, AwakeAt (s.wakePatterns now) j := by
  obtain ⟨htable, hawake⟩ := State.foldl_wake_tableOk now allIds h
  unfold State.wakePatterns
  exact ⟨htable, fun j => hawake j (Or.inl (List.mem_finRange j))⟩

theorem State.setCivil_scheduleOk {s : State} (h : ScheduleOk s) (p : Port) (new : Civil) :
    ScheduleOk (s.setCivil p new) := by
  unfold State.setCivil
  split
  · have hset : TableOk (s.setCivilTime (some new) none none) := ⟨h.table.lists, h.table.counts⟩
    obtain ⟨htable, hawake⟩ := State.wakePatterns_tableOk hset new
    have hvalid : ((s.setCivilTime (some new) none none).wakePatterns new).civil ≠ none := by
      rw [State.wakePatterns_civil, State.setCivilTime_civil]
      exact Option.some_ne_none new
    have hwoken := ScheduleOk.of_valid htable hvalid hawake
    exact hwoken.offerEach _
  · next old hc =>
    refine State.moveCivil_scheduleOk h ?_ _ _ _ _ _ _
    rw [hc]
    exact nofun

theorem State.stepCivil_scheduleOk {s : State} (h : ScheduleOk s) (p : Port) (offset : Int) (mode : Byte) :
    ScheduleOk (s.stepCivil p offset mode).1 := by
  unfold State.stepCivil
  split
  · exact h
  · split
    · exact h
    · exact h
    · next old hc _ =>
      split
      · unfold State.stepNow
        split
        · exact State.moveCivil_scheduleOk h (by rw [hc]; exact nofun) _ _ _ _ _ _
        · exact h
      · unfold State.stepAtSecond
        split
        · exact h.of_schedule rfl
        · exact h

/-! ### Invalidation and advances (R1, R13, R36, R37, R101) -/

theorem State.sleep_tableOk {s : State} (h : TableOk s) (id : EntryId) : TableOk (s.sleep id) := by
  unfold State.sleep
  split
  · exact h
  · next e he =>
    split
    · next ht =>
      refine (h.but id).park (h.stands he) ?_
      rw [ht]
      trivial
    · exact h

theorem Entry.civilMatches_madeDormant (e : Entry) : e.madeDormant.civilMatches = [] := by
  unfold Entry.madeDormant
  split
  · exact if_neg nofun
  · next h =>
    refine ite_eq_right_iff.2 fun hs => ?_
    cases ht : e.timing with
    | once | periodic | afterCapture => rfl
    | pattern => exact (h _ _ _ _ hs ht).elim

/-- No position stands in the CIVIL due list for entries that have none. -/
theorem TableOk.civils_eq_nil {s : State} (h : TableOk s)
    (hnone : ∀ (id : EntryId) (e : Entry), (s.slot id).entry = some e → e.civilMatches = []) : s.civils = [] := by
  refine List.eq_nil_iff_forall_not_mem.2 fun x hx => ?_
  obtain ⟨e, he, -⟩ := h.lists.entry_of_mem_civils hx
  have hat : x.next ∈ s.civilAt x.id := List.mem_map.2 ⟨x, List.mem_filter.2 ⟨hx, beq_self_eq_true _⟩, rfl⟩
  rw [← ((h.lists.1 x.id).placed he).civilMatches, hnone _ _ he] at hat
  cases hat

/-- R101: once every ARMED PATTERN entry is DORMANT nothing is left in the CIVIL due list to drop. -/
theorem State.sleepPatterns_tableOk {s : State} (h : TableOk s) : TableOk s.sleepPatterns := by
  have hslept : TableOk (allIds.foldl State.sleep s) := foldl_keeps _ h fun t i _ ht => State.sleep_tableOk ht i
  have hempty : (allIds.foldl State.sleep s).civils = [] := by
    refine hslept.civils_eq_nil fun id e he => ?_
    have hentry := congrArg Slot.entry (s.slot_sleepPatterns id)
    rw [State.sleepPatterns, State.setLists_slot, he] at hentry
    obtain ⟨e₀, -, rfl⟩ := Option.map_eq_some_iff.1 hentry.symm
    exact e₀.civilMatches_madeDormant
  have hsame : s.sleepPatterns = allIds.foldl State.sleep s := by
    simp only [State.sleepPatterns, State.setLists, ← hempty]
  rw [hsame]
  exact hslept

theorem State.invalidate_scheduleOk {s : State} (h : TableOk s) (cause : ChangeCause) (p : Option Port) :
    ScheduleOk (s.invalidate cause p) := by
  have hset : TableOk (s.setCivilTime none none none) := ⟨h.lists, h.counts⟩
  have hcivil : (s.setCivilTime none none none).sleepPatterns.civil = none := by
    rw [State.sleepPatterns_civil, State.setCivilTime_civil]
  obtain ⟨hcivils, -⟩ := (s.setCivilTime none none none).sleepPatterns_rest
  have hslept := ScheduleOk.of_unset (State.sleepPatterns_tableOk hset) hcivil hcivils
  exact hslept.offerEach _

theorem State.schedule_tick (s : State) : s.tick.schedule = s.schedule := by
  unfold State.tick
  split <;> rfl

theorem State.advanceTime_scheduleOk {s : State} (h : ScheduleOk s) : ScheduleOk s.advanceTime := by
  have htick : ScheduleOk s.tick := h.of_schedule s.schedule_tick
  cases hc : s.civil with
  | none =>
    rw [State.advanceTime_unset hc]
    exact htick
  | some c =>
    by_cases hy : (c.advance (advanceAmount s.slew)).year ≤ 2199
    · rw [State.advanceTime_valid hc hy]
      have hawake : ∀ id, AwakeAt s.tick id := by
        refine ((validityOk_iff _).1 htick.validity).2 ?_
        obtain ⟨-, -, -, hcivil, -⟩ := s.tick_clock
        rw [hcivil, hc]
        exact nofun
      have hset : ∀ new v x, ScheduleOk (s.tick.setCivilTime (some new) v x) := fun _ _ _ =>
        ⟨⟨htick.table.lists, htick.table.counts⟩, (validityOk_iff _).2 ⟨nofun, fun _ => hawake⟩⟩
      dsimp only
      split
      · exact (hset _ _ _).offerEach _
      · exact hset _ _ _
    · rw [State.advanceTime_end hc (Nat.not_le.1 hy)]
      exact State.invalidate_scheduleOk htick.table _ _

theorem State.takeAdvance_scheduleOk {s : State} (h : ScheduleOk s) : ScheduleOk s.takeAdvance :=
  (State.advanceTime_scheduleOk h).of_schedule rfl

/-! ### The requests of the schedule table (R43 to R62) -/

theorem Timing.mayPark_suspended (t : Timing) : t.mayPark .suspended := by
  cases t <;> trivial

/-- R52 to R55: an entry takes the state of its kind. -/
theorem State.enter_scheduleOk {s : State} {id : EntryId} {e : Entry} (h : TableOkBut s id) (hv : ValidityOk s)
    (he : Stands s id e) : ScheduleOk (s.enter id e) := by
  unfold State.enter
  split
  · next ht => exact ⟨h.armMono he (by rw [ht]; rfl) _ _, hv.armMono id e _ _⟩
  · next ht => exact ⟨h.armMono he (by rw [ht]; rfl) _ _, hv.armMono id e _ _⟩
  · next ht =>
    split
    · next c hc =>
      exact ⟨h.placeAt he (by rw [ht]; rfl) _, hv.placeAt (by rw [hc]; exact nofun) id e _⟩
    · next hc =>
      exact ⟨h.park he (by rw [ht]; trivial), hv.park id e fun hn => absurd hc hn⟩
  · next ht => exact ⟨h.park he (by rw [ht]; trivial), hv.park id e fun _ => nofun⟩

/-- R43: the slot allocated is the only one that the lists may disagree with. -/
theorem State.allocate_tableOkBut {s : State} (h : TableOk s) {id : EntryId} {e : Entry} (he : (s.slot id).entry = none)
    (hq : s.heldBy e.owner < 8 ∨ s.poolUse < 32) : TableOkBut (s.allocate id e) id where
  lists := (h.lists.but id).of_slot (fun j hj => (s.slot_allocate id e j).trans (if_neg hj)) (fun _ _ => rfl)
    (fun _ _ => rfl) h.lists.2
  counts := h.counts.allocate he hq

theorem State.allocate_validityOk {s : State} (h : ValidityOk s) {id : EntryId} {e : Entry} (hs : e.state ≠ .dormant) :
    ValidityOk (s.allocate id e) := by
  refine h.of_slot (s.slot_allocate id e) rfl (fun _ hl => hl) (fun _ e' he' => ?_)
  cases he'
  exact hs

/-- A creation that passes its checks has passed the quota check (R49). -/
theorem State.quotaOk_of_createCheck {s : State} {p : Port} {a : CreateArgs} (h : s.createCheck p a = none) :
    s.quotaOk p = true := by
  unfold State.createCheck at h
  cases hq : s.quotaOk p with
  | true => rfl
  | false =>
    simp only [hq] at h
    repeat' split at h
    all_goals simp_all

theorem State.entry_of_lowestFree {s : State} {id : EntryId} (h : s.lowestFree = some id) : (s.slot id).entry = none :=
  Option.isNone_iff_eq_none.1 (List.find?_some (p := fun i => (s.slot i).entry.isNone) h)

theorem State.create_scheduleOk {s : State} (h : ScheduleOk s) (p : Port) {a : CreateArgs} (ha : a.timing.fits) :
    ScheduleOk (s.create p a).1 := by
  unfold State.create
  split
  · exact h
  · exact h
  · next id hcheck hfree =>
    have he := State.entry_of_lowestFree hfree
    have hq := (s.quotaOk_iff p).1 (State.quotaOk_of_createCheck hcheck)
    refine State.enter_scheduleOk (State.allocate_tableOkBut h.table he hq)
      (State.allocate_validityOk h.validity nofun) ⟨⟨a.entry p, ?_, rfl⟩, ha⟩
    rw [State.slot_allocate, if_pos rfl]

/-- The timing part of a creation is in its ranges (R51 to R55). -/
theorem decodeTiming_fits {args : List Byte} {at0 : Nat} {t : Timing} (h : decodeTiming args at0 = some t) : t.fits := by
  unfold decodeTiming at h
  split at h
  · cases h
    trivial
  · dsimp only at h
    split at h
    · next hp =>
      cases h
      exact ⟨hp, Nat.zero_le _⟩
    · cases h
  · dsimp only at h
    split at h
    · split at h
      · next hr =>
        cases h
        exact ⟨(Bool.and_eq_true _ _ ▸ hr).2, Nat.zero_le _⟩
      · cases h
    · cases h
  · split at h
    · cases h
      trivial
    · cases h
  · cases h

theorem decodeCreate_fits {args : List Byte} {a : CreateArgs} (h : decodeCreate args = .ok a) : a.timing.fits := by
  unfold decodeCreate at h
  split_ifs at h
  split at h
  · next ht =>
    cases h
    exact decodeTiming_fits ht
  · cases h

/-- R61, R62: a resumption. -/
theorem State.resume_scheduleOk {s : State} (h : ScheduleOk s) {id : EntryId} {e : Entry}
    (he : (s.slot id).entry = some e) : ScheduleOk (s.resume id e).1 := by
  have hbut := h.table.but id
  have hstands := h.table.stands he
  have hv := h.validity
  unfold State.resume
  split
  · next ht => exact ⟨hbut.armMono hstands (by rw [ht]; rfl) _ _, hv.armMono id e _ _⟩
  · next ht => exact ⟨hbut.armMono hstands (by rw [ht]; rfl) _ _, hv.armMono id e _ _⟩
  · next ht =>
    split
    · next c hc =>
      exact ⟨hbut.placeAt hstands (by rw [ht]; rfl) _, hv.placeAt (by rw [hc]; exact nofun) id e _⟩
    · next hc =>
      exact ⟨hbut.park hstands (by rw [ht]; trivial), hv.park id e fun hn => absurd hc hn⟩
  · next ht =>
    split
    · exact ⟨hbut.park hstands (by rw [ht]; trivial), hv.park id e fun _ => nofun⟩
    · exact h

/-- An entry's request keeps the invariant when its meaning does for the entry that stands in the slot. -/
theorem withEntry_keeps {P : State → Prop} {run : EntryId → Entry → State → State × Reply} (p : Port)
    (h : ∀ id e t, (t.slot id).entry = some e → P t → P (run id e t).1) (args : List Byte) (t : State) (ht : P t) :
    P (withEntry p run args t).1 := by
  unfold withEntry withLength
  split
  · dsimp only
    split
    · exact ht
    · next id _ =>
      split
      · exact ht
      · next e he =>
        split
        · exact ht
        · split
          · exact ht
          · exact h id e t he ht
  · exact ht

/-! ### Captures and port resets (R65, R133, R137) -/

theorem State.armByEdge_scheduleOk {s : State} (h : ScheduleOk s) (id : EntryId) : ScheduleOk (s.armByEdge id) := by
  unfold State.armByEdge
  split
  · exact h
  · next e he =>
    split
    · next ht =>
      exact ⟨(h.table.but id).armMono (h.table.stands he) (by rw [ht]; rfl) _ _, h.validity.armMono id e _ _⟩
    · exact h
    · exact h
    · exact h

theorem State.releaseInput_scheduleOk {s : State} (h : ScheduleOk s) (p : Port) (i : Input) :
    ScheduleOk (s.releaseInput p i).1 := by
  have hended : ScheduleOk ((s.lostAtRelease p i).foldl (fun t id => t.endEntry id .captureLost) s) :=
    foldl_keeps _ h fun t id _ ht => ht.endEntry id _
  exact hended.of_schedule rfl

theorem State.takeEdge_scheduleOk {s : State} (h : ScheduleOk s) (i : Input) (pol : Polarity) :
    ScheduleOk (s.takeEdge i pol) := by
  unfold State.takeEdge
  split
  · exact h
  · next c _ =>
    split
    · split
      · have harmed : ∀ r, ScheduleOk ((s.waitingOn c.owner i).foldl State.armByEdge (s.offer c.owner r)) := fun r =>
          foldl_keeps _ (h.of_schedule (s := s) (t := s.offer c.owner r) rfl) fun t id _ ht =>
            State.armByEdge_scheduleOk ht id
        exact (harmed _).of_schedule rfl
      · exact h.of_schedule rfl
    · exact h

theorem State.resetPort_scheduleOk {s : State} (h : ScheduleOk s) (p : Port) (brk : Bool) :
    ScheduleOk (s.resetPort p brk) := by
  have hfreed : ScheduleOk (s.freeEntriesOf p) := foldl_keeps _ h fun t id _ ht => ht.freeEntry id
  obtain ⟨hslots, hheld, hpool, hmono, hcivils, -, -⟩ := s.resetPort_shared p brk
  have hcivil : (s.resetPort p brk).civil = (s.freeEntriesOf p).civil := by
    rw [(s.resetPort_timeKept p brk).civil, State.freeEntriesOf_blocks]
  exact hfreed.of_schedule (State.schedule_eq hcivil hslots hheld hpool hmono hcivils)

theorem State.ackExpired_scheduleOk {s : State} (h : ScheduleOk s) (p : Port) : ScheduleOk (s.ackExpired p) := by
  unfold State.ackExpired
  dsimp only
  split
  · split
    · exact h.of_schedule rfl
    · exact State.resetPort_scheduleOk h p false
  · exact h.of_schedule rfl

end Sys2Proof.Machine
end

section
/-! SUPPORT. What every command makes of the schedule: most leave it, the rest keep its invariant (R42 to R62, R66, R96 to
R105).
-/

namespace Sys2Proof.Machine

/-! ### The commands that leave the schedule -/

/-- The commands that may change an entry, a due list or civil time: those of the schedule table and its firings, the
changes of civil time and the advances, those that end or arm AFTER_CAPTURE entries, those that may take a port reset, and
DEVICE_RESET. -/
def reachesSchedule : Instr → Bool
  | .createEntry _ | .cancelEntry _ | .suspendEntry _ | .resumeEntry _ | .monoFiring | .civilFiring => true
  | .runTimeAdvance | .adjustedAdvance | .calendarEnd => true
  | .secondBoundary | .setCivil _ | .stepCivil _ | .invalidateCivil _ => true
  | .releaseInput _ | .captureEdge _ _ => true
  | .responseTransmissionEnd _ | .ackTimeout _ | .breakSeen _ | .deviceReset => true
  | _ => false

theorem State.schedule_setPort (s : State) (p : Port) (x : PortState) : (s.setPort p x).schedule = s.schedule := rfl

theorem State.schedule_setLink (s : State) (p : Port) (x : Link) : (s.setLink p x).schedule = s.schedule := rfl

theorem State.schedule_setLine (s : State) (l : Line) (x : LineState) : (s.setLine l x).schedule = s.schedule := rfl

theorem State.schedule_setClaim (s : State) (i : Input) (c : Option InputClaim) :
    (s.setClaim i c).schedule = s.schedule := rfl

/-- A change that is made only under a condition. -/
theorem State.schedule_ite {s t : State} (h : t.schedule = s.schedule) (c : Prop) [Decidable c] :
    (if c then t else s).schedule = s.schedule := by
  split
  · exact h
  · rfl

theorem State.schedule_claimAuthority (s : State) (p : Port) (ms : Nat) :
    (s.claimAuthority p ms).1.schedule = s.schedule := by
  unfold State.claimAuthority
  dsimp only
  split
  · rfl
  · split <;> rfl

theorem State.schedule_endAuthority (s : State) (q : Option Port) : (s.endAuthority q).schedule = s.schedule :=
  State.schedule_offerEach _ _

theorem State.schedule_cancelStep (s : State) : s.cancelStep.schedule = s.schedule := State.schedule_offerEach _ _

theorem State.schedule_slewCivil (s : State) (p : Port) (offset : Int) (rate : Nat) :
    (s.slewCivil p offset rate).1.schedule = s.schedule := by
  unfold State.slewCivil
  split
  · split <;> rfl
  · rfl

theorem State.schedule_claimLine (s : State) (p : Port) (l : Line) (idle : Level) :
    (s.claimLine p l idle).1.schedule = s.schedule := by
  unfold State.claimLine
  dsimp only
  split
  · rfl
  · split <;> rfl

theorem State.schedule_driveLine (s : State) (p : Port) (a : LineAction) : (s.driveLine p a).1.schedule = s.schedule := by
  unfold State.driveLine
  split
  · exact State.schedule_askLine s (some a) p .direct
  · rfl

theorem State.schedule_claimInput (s : State) (p : Port) (i : Input) (mode : EdgeMode) (holdoff : Nat) :
    (s.claimInput p i mode holdoff).1.schedule = s.schedule := by
  unfold State.claimInput
  split
  · rfl
  · split <;> rfl

theorem exec_schedule {c : Instr} {s t : State} (hc : reachesSchedule c = false) (hr : s.rstN = true)
    (h : exec c s = .next t) : t.schedule = s.schedule := by
  have key : ∀ u : State, exec c s = .next u → u.schedule = s.schedule → t.schedule = s.schedule := fun u =>
    of_exec_eq (P := fun u => u.schedule = s.schedule) h
  have blind : LinkBlind (fun s t => t.schedule = s.schedule) :=
    ⟨fun _ => rfl, fun h k => k.trans h, State.schedule_setLink⟩
  have answers : ∀ (f : State → Reply) (args : List Byte) (t : State), (t, f t).1.schedule = t.schedule :=
    fun _ _ _ => rfl
  cases c with
  | monoFiring | civilFiring | runTimeAdvance | adjustedAdvance | calendarEnd | secondBoundary | deviceReset =>
    exact absurd hc (by decide)
  | createEntry | cancelEntry | suspendEntry | resumeEntry | setCivil | stepCivil | invalidateCivil => cases hc
  | releaseInput | captureEdge | responseTransmissionEnd | ackTimeout | breakSeen => cases hc
  | readTime p => exact key _ (execReadTime_released p hr) (blind.serve (blind.withLength 0 (answers _)) s p _)
  | listEntries p => exact key _ (execListEntries_released p hr) (blind.serve (blind.withLength 0 (answers _)) s p _)
  | getPortStatus p =>
    exact key _ (execGetPortStatus_released p hr) (blind.serve (blind.withLength 0 (answers _)) s p _)
  | getInfo p => exact key _ (execGetInfo_released p hr) (blind.serve (blind.withLength 0 (answers _)) s p _)
  | portReset p => exact key _ (execPortReset_released p hr) (blind.serve (blind.withLength 0 (answers _)) s p _)
  | queryEntry p => exact key _ (execQueryEntry_released p hr) (blind.serve (blind.withEntry p fun _ _ _ => rfl) s p _)
  | clearFaults p => exact key _ (execClearFaults_released p hr) (blind.serve (blind.withLength 0 fun _ _ => rfl) s p _)
  | claimAuthority p =>
    refine key _ (execClaimAuthority_released p hr) (blind.serve (blind.withLength 4 fun args t => ?_) s p _)
    dsimp only
    split
    · exact t.schedule_claimAuthority p _
    · rfl
  | releaseAuthority p =>
    refine key _ (execReleaseAuthority_released p hr) (blind.serve (blind.withLength 0 fun _ t => ?_) s p _)
    split
    · exact t.schedule_endAuthority none
    · rfl
  | leaseExpiry =>
    refine key _ (execLeaseExpiry_released hr) ?_
    split
    · rfl
    · exact State.schedule_ite (s.schedule_endAuthority _) _
  | cancelStep p =>
    refine key _ (execCancelStep_released p hr) (blind.serve (blind.civilChange p 0 fun _ t => ?_) s p _)
    split
    · rfl
    · exact t.schedule_cancelStep
  | slewCivil p =>
    exact key _ (execSlewCivil_released p hr)
      (blind.serve (blind.civilChange p 6 fun _ t => t.schedule_slewCivil p _ _) s p _)
  | claimLine p =>
    refine key _ (execClaimLine_released p hr) (blind.serve (blind.withLength 2 fun args t => ?_) s p _)
    split
    · exact t.schedule_claimLine p _ _
    · rfl
  | releaseLine p =>
    refine key _ (execReleaseLine_released p hr) (blind.serve (blind.withLength 1 fun args t => ?_) s p _)
    split
    · split <;> rfl
    · rfl
  | driveLine p =>
    refine key _ (execDriveLine_released p hr) (blind.serve (blind.withLength 6 fun args t => ?_) s p _)
    split
    · exact t.schedule_driveLine p _
    · rfl
  | pulseEnd l =>
    refine key _ (execPulseEnd_released l hr) ?_
    split
    · exact State.schedule_ite (s.schedule_setLine l _) _
    · rfl
  | claimInput p =>
    refine key _ (execClaimInput_released p hr) (blind.serve (blind.withLength 4 fun args t => ?_) s p _)
    split
    · exact t.schedule_claimInput p _ _ _
    · rfl
  | holdoffExpiry i =>
    refine key _ (execHoldoffExpiry_released i hr) ?_
    split
    · rfl
    · split
      · rfl
      · exact State.schedule_ite (s.schedule_setClaim i _) _
  | setPortConfig p =>
    refine key _ (execSetPortConfig_released p hr) (blind.serve (blind.withLength 5 fun args t => ?_) s p _)
    split <;> rfl
  | unknownRequest p =>
    refine key _ (execUnknownRequest_released p hr) ?_
    split
    · rfl
    · rfl
    · rfl
    · split <;> rfl
  | ackFrame p =>
    refine key _ (execAckFrame_released p hr) ?_
    split <;> rfl
  | backoffExpiry p =>
    refine key _ (execBackoffExpiry_released p hr) ?_
    split
    · rfl
    · exact State.schedule_ite (s.schedule_setPort p _) _
  | characterReceived p b moment =>
    refine key _ (execCharacterReceived_released p b moment hr) ?_
    split <;> rfl
  | frameComplete p b => exact key _ (execFrameComplete_released p b hr) (State.schedule_ite (s.schedule_setPort p _) _)
  | lengthFault p b => exact key _ (execLengthFault_released p b hr) (State.schedule_ite (s.schedule_setPort p _) _)
  | gapExpiry p => exact key _ (execGapExpiry_released p hr) (State.schedule_ite (s.schedule_setLink p _) _)
  | transmitStart p => exact key _ (execTransmitStart_released p hr) (s.schedule_setPort p _)
  | noteTransmissionEnd p => exact key _ (execNoteTransmissionEnd_released p hr) (s.schedule_setPort p _)
  | receiveLineAtMark p => exact key _ (execReceiveLineAtMark_released p hr) (s.schedule_setLink p _)
  | resetRelease r1 r0 c0 c1 c2 c3 =>
    refine key _ (exec_resetRelease s r1 r0 c0 c1 c2 c3) ?_
    rw [if_pos hr]

/-! ### The commands that reach the schedule -/

/-- Keeping the invariant is a relation that a change of a port's link does not touch. -/
theorem scheduleOk_linkBlind : LinkBlind (fun s t => ScheduleOk s → ScheduleOk t) where
  refl := fun _ h => h
  trans := fun h k hs => k (h hs)
  setLink := fun s p x hs => hs.of_schedule (s.schedule_setLink p x)

/-- A change that is made only under a condition. -/
theorem ScheduleOk.ite {s t : State} (hs : ScheduleOk s) (c : Prop) [Decidable c] (ht : c → ScheduleOk t) :
    ScheduleOk (if c then t else s) := by
  split
  · next h => exact ht h
  · exact hs

theorem State.deviceReset_scheduleOk (s : State) :
    ScheduleOk { State.reset with freeCount := s.freeCount, pending := s.pending } := by
  obtain ⟨-, -, -, -, -, hlists, hvalidity, hcounts, -⟩ := invariantsAtReset
  exact ScheduleOk.of_schedule (s := State.reset) ⟨⟨hlists, hcounts⟩, hvalidity⟩ rfl

/-- A request of the schedule table. -/
theorem exec_entryRequest_scheduleOk {c : Instr} {s t : State} {p : Port}
    (hc : c = .createEntry p ∨ c = .cancelEntry p ∨ c = .suspendEntry p ∨ c = .resumeEntry p) (hr : s.rstN = true)
    (hs : ScheduleOk s) (h : exec c s = .next t) : ScheduleOk t := by
  have key : ∀ u : State, exec c s = .next u → ScheduleOk u → ScheduleOk t := fun u => of_exec_eq h
  have blind := scheduleOk_linkBlind
  rcases hc with rfl | rfl | rfl | rfl
  · refine key _ (execCreateEntry_released p hr) (blind.serve (fun args t ht => ?_) s p _ hs)
    split
    · exact ht
    · next a ha => exact State.create_scheduleOk ht p (decodeCreate_fits ha)
  · exact key _ (execCancelEntry_released p hr)
      (blind.serve (withEntry_keeps p fun id _ t _ ht => ht.freeEntry id) s p _ hs)
  · refine key _ (execSuspendEntry_released p hr) (blind.serve (withEntry_keeps p fun id e t he ht => ?_) s p _ hs)
    split
    · exact ht
    · exact ⟨(ht.table.but id).park (ht.table.stands he) e.timing.mayPark_suspended,
        ht.validity.park id e fun _ => nofun⟩
  · refine key _ (execResumeEntry_released p hr) (blind.serve (withEntry_keeps p fun id e t he ht => ?_) s p _ hs)
    split
    · exact State.resume_scheduleOk ht he
    · exact ht

/-- A firing of the head of a due list. -/
theorem exec_firing_scheduleOk {c : Instr} {s t : State} (hc : c = .monoFiring ∨ c = .civilFiring) (hr : s.rstN = true)
    (hs : ScheduleOk s) (h : exec c s = .next t) : ScheduleOk t := by
  have key : ∀ u : State, exec c s = .next u → ScheduleOk u → ScheduleOk t := fun u => of_exec_eq h
  have reached : ∀ r : Reached, ScheduleOk (s.setReached r) := fun _ => hs.of_schedule rfl
  rcases hc with rfl | rfl
  · refine key _ (execMonoFiring_released hr) ?_
    split
    · exact hs
    · next pos rest hm =>
      have hpos : pos ∈ s.mono := hm ▸ List.mem_cons_self
      exact hs.ite _ fun _ => State.fireMono_scheduleOk (reached _) hpos
  · refine key _ (execCivilFiring_released hr) ?_
    split
    · next pos rest c hl hc =>
      have hvalid : s.civil ≠ none := by
        rw [hc]
        exact Option.some_ne_none c
      have hpos : pos ∈ s.civils := hl ▸ List.mem_cons_self
      exact hs.ite _ fun _ =>
        (((reached { s.reached with civil := false }).placing hvalid).fireCivil ⟨pos, hpos, rfl⟩).schedule
    · exact hs

theorem exec_reachesSchedule_scheduleOk {c : Instr} {s t : State} (hc : reachesSchedule c = true) (hr : s.rstN = true)
    (hs : ScheduleOk s) (h : exec c s = .next t) : ScheduleOk t := by
  have key : ∀ u : State, exec c s = .next u → ScheduleOk u → ScheduleOk t := fun u => of_exec_eq h
  have blind := scheduleOk_linkBlind
  have advanced : ∀ b : Bool, ScheduleOk (if b then s.takeAdvance else s) := fun b =>
    hs.ite _ fun _ => State.takeAdvance_scheduleOk hs
  cases c with
  | createEntry p => exact exec_entryRequest_scheduleOk (.inl rfl) hr hs h
  | cancelEntry p => exact exec_entryRequest_scheduleOk (.inr (.inl rfl)) hr hs h
  | suspendEntry p => exact exec_entryRequest_scheduleOk (.inr (.inr (.inl rfl))) hr hs h
  | resumeEntry p => exact exec_entryRequest_scheduleOk (.inr (.inr (.inr rfl))) hr hs h
  | monoFiring => exact exec_firing_scheduleOk (.inl rfl) hr hs h
  | civilFiring => exact exec_firing_scheduleOk (.inr rfl) hr hs h
  | runTimeAdvance => exact key _ (execRunTimeAdvance_released hr) (advanced _)
  | adjustedAdvance => exact key _ (execAdjustedAdvance_released hr) (advanced _)
  | calendarEnd => exact key _ (execCalendarEnd_released hr) (advanced _)
  | secondBoundary =>
    refine key _ (execSecondBoundary_released hr) ?_
    split
    · next held x hc _ =>
      split
      · exact State.moveCivil_scheduleOk hs (by rw [hc]; exact Option.some_ne_none held) _ _ _ _ _ _
      · exact hs
    · exact hs
  | setCivil p =>
    refine key _ (execSetCivil_released p hr) (blind.serve (blind.civilChange p 12 fun args t ht => ?_) s p _ hs)
    split
    · exact ht
    · exact State.setCivil_scheduleOk ht p _
  | stepCivil p =>
    exact key _ (execStepCivil_released p hr) (blind.serve
      (blind.civilChange p 9 fun _ t ht => State.stepCivil_scheduleOk ht p _ _) s p _ hs)
  | invalidateCivil p =>
    refine key _ (execInvalidateCivil_released p hr) (blind.serve (blind.civilChange p 0 fun _ t ht => ?_) s p _ hs)
    split
    · exact ht
    · exact State.invalidate_scheduleOk ht.table _ _
  | releaseInput p =>
    refine key _ (execReleaseInput_released p hr) (blind.serve (blind.withLength 1 fun args t ht => ?_) s p _ hs)
    split
    · split
      · exact State.releaseInput_scheduleOk ht p _
      · exact ht
    · exact ht
  | captureEdge i level =>
    have hseen : ScheduleOk (s.setInput i { s.input i with seen := some level }) := hs.of_schedule rfl
    refine key _ (execCaptureEdge_released i level hr) ?_
    split
    · exact hseen
    · split
      · exact hs
      · exact State.takeEdge_scheduleOk hseen i _
  | responseTransmissionEnd p =>
    have hlink : ∀ x : Link, ScheduleOk (s.setLink p x) := fun x => blind.setLink s p x hs
    refine key _ (execResponseTransmissionEnd_released p hr) ?_
    split
    · dsimp only
      exact (hlink _).ite _ fun _ => State.resetPort_scheduleOk (hlink _) p false
    · exact hlink _
    · exact hs
    · exact hs
    · exact hs
  | ackTimeout p =>
    refine key _ (execAckTimeout_released p hr) ?_
    split
    · exact hs
    · exact hs.ite _ fun _ => State.ackExpired_scheduleOk hs p
  | breakSeen p => exact key _ (execBreakSeen_released p hr) (hs.ite _ fun _ => State.resetPort_scheduleOk hs p true)
  | deviceReset => exact key _ (exec_deviceReset s) s.deviceReset_scheduleOk
  | _ => cases hc

/-! ### Every step -/

/-- A command given while RST_N is low keeps the invariant. -/
theorem exec_low_scheduleOk {c : Instr} {s t : State} (hr : s.rstN = false) (hs : ScheduleOk s)
    (h : exec c s = .next t) : ScheduleOk t := by
  have key : ∀ u : State, exec c s = .next u → ScheduleOk u → ScheduleOk t := fun u => of_exec_eq h
  cases c with
  | deviceReset => exact key _ (exec_deviceReset s) s.deviceReset_scheduleOk
  | resetRelease r1 r0 c0 c1 c2 c3 =>
    refine key _ (exec_resetRelease s r1 r0 c0 c1 c2 c3) ?_
    rw [hr]
    exact hs.of_schedule rfl
  | _ => exact key s (exec_of_low hr (by simp) (by simp)) hs

theorem exec_scheduleOk {c : Instr} {s t : State} (hs : ScheduleOk s) (h : exec c s = .next t) : ScheduleOk t := by
  cases hr : s.rstN with
  | false => exact exec_low_scheduleOk hr hs h
  | true =>
    cases hc : reachesSchedule c with
    | true => exact exec_reachesSchedule_scheduleOk hc hr hs h
    | false => exact hs.of_schedule (exec_schedule hc hr h)

/-- Settles O60: an operation on one slot brings the due lists back in agreement with it (`ListsOkBut`), so that the
commands that reach the schedule keep the invariant one by one, and all others leave what it reads (`exec_schedule`); a
REFCLK cycle and the queue of commands are nothing to it. -/
theorem scheduleInvariant : Obligations.ScheduleInvariant := by
  intro s t hlists hvalidity hcounts h
  have ht : ScheduleOk t :=
    step_keeps (fun _ _ hs => hs.of_schedule rfl) (fun _ hs _ => hs.of_schedule rfl)
      (fun _ _ _ hs h => exec_scheduleOk hs h) s t ⟨⟨hlists, hcounts⟩, hvalidity⟩ h
  exact ⟨ht.table.lists, ht.validity, ht.table.counts⟩

end Sys2Proof.Machine
end

section
/-! SUPPORT. The requests of the schedule table: the FREE slot that a creation finds, the checks of a creation and of an
entry handle, and what each request answers (R43 to R62).
-/

namespace Sys2Proof.Machine

/-! ### The FREE slot of a creation (R43, R49) -/

/-- The lowest FREE id is FREE, and no id below it is. -/
theorem State.lowestFree_eq_some_iff (s : State) (id : EntryId) :
    s.lowestFree = some id ↔ (s.slot id).entry = none ∧ ∀ j : EntryId, j < id → (s.slot j).entry ≠ none := by
  have hsorted : allIds.Pairwise (· < ·) := List.pairwise_lt_finRange 64
  unfold State.lowestFree
  rw [List.find?_eq_some_iff_append]
  constructor
  · rintro ⟨hfree, before, after, hids, hbefore⟩
    refine ⟨Option.isNone_iff_eq_none.1 hfree, fun j hj hnone => ?_⟩
    rw [hids, List.pairwise_append, List.pairwise_cons] at hsorted
    obtain ⟨-, ⟨hafter, -⟩, -⟩ := hsorted
    have hmem : j ∈ before ++ id :: after := hids ▸ List.mem_finRange j
    rcases List.mem_append.1 hmem with hb | ha
    · simpa [hnone] using hbefore j hb
    · rcases List.mem_cons.1 ha with rfl | ha
      · exact lt_irrefl j hj
      · exact lt_asymm hj (hafter j ha)
  · rintro ⟨hfree, hlower⟩
    obtain ⟨before, after, hids⟩ : ∃ b a, allIds = b ++ id :: a := List.append_of_mem (List.mem_finRange id)
    refine ⟨Option.isNone_iff_eq_none.2 hfree, before, after, hids, fun j hj => ?_⟩
    rw [hids, List.pairwise_append] at hsorted
    obtain ⟨-, -, hlt⟩ := hsorted
    simpa [Option.ne_none_iff_isSome] using hlower j (hlt j hj id (by simp))

/-- With no slot FREE the four ports hold the 64 entries. -/
theorem State.entriesOf_full {s : State} (h : ∀ id : EntryId, (s.slot id).entry ≠ none) :
    64 ≤ (s.entriesOf 0).length + (s.entriesOf 1).length + (s.entriesOf 2).length + (s.entriesOf 3).length := by
  have hall : allIds ⊆ s.entriesOf 0 ++ s.entriesOf 1 ++ s.entriesOf 2 ++ s.entriesOf 3 := fun id _ => by
    obtain ⟨e, he⟩ := Option.ne_none_iff_exists'.1 (h id)
    simp only [List.mem_append, State.mem_entriesOf, he, Option.some.injEq, exists_eq_left']
    generalize e.owner = p
    fin_cases p <;> simp
  have hlen := (List.subperm_of_subset (List.nodup_finRange 64) hall).length_le
  simpa [allIds, Nat.add_assoc] using hlen

/-- Settles O27: 64 entries are 32 beyond the ports' eights, so that with a port below 8 more than 32 would be drawn on
the pool. -/
theorem quotaFindsAFreeSlot : Obligations.QuotaFindsAFreeSlot := by
  intro s p ⟨hcount, hsum, hle⟩ hquota
  obtain ⟨id, hid⟩ : ∃ id, s.lowestFree = some id := by
    by_contra hnone
    have hfull : ∀ id : EntryId, (s.slot id).entry ≠ none := fun id hfree => by
      have hfound : s.lowestFree.isSome :=
        List.find?_isSome.2 ⟨id, List.mem_finRange id, Option.isNone_iff_eq_none.2 hfree⟩
      exact hnone (Option.isSome_iff_exists.1 hfound)
    have h64 := State.entriesOf_full hfull
    rw [← hcount, ← hcount, ← hcount, ← hcount] at h64
    rcases hquota with hp | hpool
    · have hone : s.heldBy 0 < 8 ∨ s.heldBy 1 < 8 ∨ s.heldBy 2 < 8 ∨ s.heldBy 3 < 8 := by
        revert hp
        fin_cases p <;> intro hp <;> simp_all
      omega
    · omega
  obtain ⟨hfree, hlower⟩ := (s.lowestFree_eq_some_iff id).1 hid
  exact ⟨id, hfree, hid, hlower⟩

/-! ### The checks of a creation (R50) -/

/-- R50 step 3: no year contains the date of the pattern. -/
def CreateArgs.Impossible (a : CreateArgs) : Prop :=
  ∃ pat next policy skips, a.timing = .pattern pat next policy skips ∧ pat.impossible = true

/-- R50 step 4: the line of the line action is not the port's. -/
def State.LineLost (s : State) (p : Port) (a : CreateArgs) : Prop :=
  ∃ x, a.action = some x ∧ s.ownsLine p x.line = false

/-- R50 step 5: the input is not the port's. -/
def State.InputLost (s : State) (p : Port) (a : CreateArgs) : Prop :=
  ∃ i delay rearm due, a.timing = .afterCapture i delay rearm due ∧ s.ownsInput p i = false

/-- R50 step 4, as `State.createCheck` asks it. -/
def State.ownsAction (s : State) (p : Port) (action : Option LineAction) : Bool :=
  match action with
  | some x => s.ownsLine p x.line
  | none => true

section CreateCheck

variable {s : State} {p : Port} {a : CreateArgs}

theorem State.lineLost_iff : s.LineLost p a ↔ s.ownsAction p a.action = false := by
  unfold State.LineLost State.ownsAction
  cases a.action <;> simp

theorem State.quotaOk_eq_false_iff : s.quotaOk p = false ↔ 8 ≤ s.heldBy p ∧ 32 ≤ s.poolUse := by
  rw [← Bool.not_eq_true, s.quotaOk_iff]
  omega

/-- The check of a PATTERN entry. -/
theorem State.createCheck_pattern {pat : Pattern} {next : Option Civil} {policy : SkipPolicy} {skips : Nat}
    (ht : a.timing = .pattern pat next policy skips) :
    s.createCheck p a =
      if pat.impossible then some .neverMatches
      else if !s.ownsAction p a.action then some .lineNotOwned
      else if !s.quotaOk p then some .quotaExceeded
      else match s.civil with
        | some c => if (pat.atOrAfter c).isNone then some .neverMatches else none
        | none => none := by
  simp only [State.createCheck, ht]
  rfl

/-- The check of an AFTER_CAPTURE entry. -/
theorem State.createCheck_afterCapture {i : Input} {delay : Nat} {rearm : Bool} {due : Option Nat}
    (ht : a.timing = .afterCapture i delay rearm due) :
    s.createCheck p a =
      if !s.ownsAction p a.action then some .lineNotOwned
      else if !s.ownsInput p i then some .inputNotOwned
      else if !s.quotaOk p then some .quotaExceeded else none := by
  simp only [State.createCheck, ht]
  rfl

/-- The check of a ONCE or PERIODIC entry. -/
theorem State.createCheck_timed (ht : (∃ due, a.timing = .once due) ∨ ∃ d f n k, a.timing = .periodic d f n k) :
    s.createCheck p a =
      if !s.ownsAction p a.action then some .lineNotOwned
      else if !s.quotaOk p then some .quotaExceeded else none := by
  rcases ht with ⟨due, ht⟩ | ⟨d, f, n, k, ht⟩ <;>
  · simp only [State.createCheck, ht]
    rfl

theorem State.createCheck_impossible (h : a.Impossible) : s.createCheck p a = some .neverMatches := by
  obtain ⟨pat, next, policy, skips, ht, hp⟩ := h
  rw [State.createCheck_pattern ht, if_pos hp]

/-- The kinds, once the date is not an impossible one. -/
theorem CreateArgs.kind_cases (h : ¬a.Impossible) :
    ((∃ due, a.timing = .once due) ∨ ∃ d f n k, a.timing = .periodic d f n k) ∨
    (∃ pat next policy skips, a.timing = .pattern pat next policy skips ∧ pat.impossible = false) ∨
    ∃ i delay rearm due, a.timing = .afterCapture i delay rearm due := by
  cases ht : a.timing with
  | once due => exact .inl (.inl ⟨due, rfl⟩)
  | periodic d f n k => exact .inl (.inr ⟨d, f, n, k, rfl⟩)
  | pattern pat next policy skips =>
    exact .inr (.inl ⟨pat, next, policy, skips, rfl, Bool.eq_false_iff.2 fun hp => h ⟨pat, next, policy, skips, ht, hp⟩⟩)
  | afterCapture i delay rearm due => exact .inr (.inr ⟨i, delay, rearm, due, rfl⟩)

theorem State.createCheck_lineLost (hi : ¬a.Impossible) (hl : s.LineLost p a) :
    s.createCheck p a = some .lineNotOwned := by
  have hlost := State.lineLost_iff.1 hl
  rcases CreateArgs.kind_cases hi with ht | ⟨pat, next, policy, skips, ht, hp⟩ | ⟨i, delay, rearm, due, ht⟩
  · rw [State.createCheck_timed ht, hlost]
    rfl
  · rw [State.createCheck_pattern ht, hp, hlost]
    rfl
  · rw [State.createCheck_afterCapture ht, hlost]
    rfl

theorem State.createCheck_inputLost (hl : ¬s.LineLost p a) (hin : s.InputLost p a) :
    s.createCheck p a = some .inputNotOwned := by
  obtain ⟨i, delay, rearm, due, ht, hlost⟩ := hin
  rw [State.createCheck_afterCapture ht, Bool.eq_true_of_not_eq_false (mt State.lineLost_iff.2 hl), hlost]
  rfl

theorem State.createCheck_full (hi : ¬a.Impossible) (hl : ¬s.LineLost p a) (hin : ¬s.InputLost p a)
    (hfull : 8 ≤ s.heldBy p ∧ 32 ≤ s.poolUse) : s.createCheck p a = some .quotaExceeded := by
  have howns := Bool.eq_true_of_not_eq_false (mt State.lineLost_iff.2 hl)
  have hquota := State.quotaOk_eq_false_iff.2 hfull
  rcases CreateArgs.kind_cases hi with ht | ⟨pat, next, policy, skips, ht, hp⟩ | ⟨i, delay, rearm, due, ht⟩
  · rw [State.createCheck_timed ht, howns, hquota]
    rfl
  · rw [State.createCheck_pattern ht, hp, howns, hquota]
    rfl
  · have hinput : s.ownsInput p i = true := Bool.eq_true_of_not_eq_false fun h => hin ⟨i, delay, rearm, due, ht, h⟩
    rw [State.createCheck_afterCapture ht, howns, hinput, hquota]
    rfl

/-- The last check, which only a PATTERN entry can fail. -/
theorem State.createCheck_last (hi : ¬a.Impossible) (hl : ¬s.LineLost p a) (hin : ¬s.InputLost p a)
    (hroom : s.heldBy p < 8 ∨ s.poolUse < 32) :
    s.createCheck p a =
      match a.timing, s.civil with
      | .pattern pat _ _ _, some c => if (pat.atOrAfter c).isNone then some .neverMatches else none
      | _, _ => none := by
  have howns := Bool.eq_true_of_not_eq_false (mt State.lineLost_iff.2 hl)
  have hquota := (s.quotaOk_iff p).2 hroom
  rcases CreateArgs.kind_cases hi with ht | ⟨pat, next, policy, skips, ht, hp⟩ | ⟨i, delay, rearm, due, ht⟩
  · rw [State.createCheck_timed ht, howns, hquota]
    rcases ht with ⟨due, ht⟩ | ⟨d, f, n, k, ht⟩ <;>
    · rw [ht]
      rfl
  · rw [State.createCheck_pattern ht, hp, howns, hquota, ht]
    cases s.civil <;> rfl
  · have hinput : s.ownsInput p i = true := Bool.eq_true_of_not_eq_false fun h => hin ⟨i, delay, rearm, due, ht, h⟩
    rw [State.createCheck_afterCapture ht, howns, hinput, hquota, ht]
    rfl

end CreateCheck

/-! ### CREATE_ENTRY (R43, R50 to R55) -/

section Create

variable {s : State} {p : Port} {tag : Byte} {args : List Byte} (h : Requested s p tag 0x10 args)
include h

theorem exec_createEntry_malformed {st : Status} (hargs : decodeCreate args = .error st) :
    exec (.createEntry p) s = .next ((s.takeRequest p).respond p tag 0x10 (Reply.plain st)) := by
  rw [execCreateEntry_released p h.1, State.serve_of_requested h, hargs]
  rfl

theorem exec_createEntry_refused {a : CreateArgs} {st : Status} (hargs : decodeCreate args = .ok a)
    (hcheck : s.createCheck p a = some st) :
    exec (.createEntry p) s = .next ((s.takeRequest p).respond p tag 0x10 (Reply.plain st)) := by
  have hcheck' : (s.takeRequest p).createCheck p a = some st := hcheck
  rw [execCreateEntry_released p h.1, State.serve_of_requested h, hargs]
  simp only [State.create, hcheck', refuse]

/-- A creation that passes its checks takes the lowest FREE id, and is answered with its handle. -/
theorem exec_createEntry_made {a : CreateArgs} {id : EntryId} {u : State} (hargs : decodeCreate args = .ok a)
    (hcheck : s.createCheck p a = none) (hid : s.lowestFree = some id)
    (hu : ((s.takeRequest p).allocate id (a.entry p)).enter id (a.entry p) = u)
    (hgen : (u.slot id).gen = (s.slot id).gen + 1) :
    exec (.createEntry p) s = .next (u.respond p tag 0x10
      { status := .ok, results := [BitVec.ofNat 8 id.val, (s.slot id).gen + 1], resets := false }) := by
  have hcheck' : (s.takeRequest p).createCheck p a = none := hcheck
  have hid' : (s.takeRequest p).lowestFree = some id := hid
  rw [execCreateEntry_released p h.1, State.serve_of_requested h, hargs]
  simp only [State.create, hcheck', hid', hu, State.handleOf, Handle.bytes, hgen, Reply.okWith]

end Create

/-- Settles O24: the checks in their order, each once those before it are passed. -/
theorem createEntryRefused : Obligations.CreateEntryRefused := by
  intro s p tag args h refused
  refine ⟨fun st hst => exec_createEntry_malformed h hst, fun a ha => ?_⟩
  intro impossible lineLost inputLost full
  have refuse : ∀ st, s.createCheck p a = some st → refused st := fun st => exec_createEntry_refused h ha
  refine ⟨fun hi => refuse _ (State.createCheck_impossible hi), fun hi hl => refuse _ (State.createCheck_lineLost hi hl),
    fun _ hl hin => refuse _ (State.createCheck_inputLost hl hin),
    fun hi hl hin hf => refuse _ (State.createCheck_full hi hl hin hf), ?_⟩
  intro hi hl hf pat next policy skips c ht hc hnone
  have hin : ¬s.InputLost p a := fun ⟨_, _, _, _, ht', _⟩ => by
    rw [ht] at ht'
    cases ht'
  have hroom : s.heldBy p < 8 ∨ s.poolUse < 32 := by omega
  refine refuse _ ((State.createCheck_last hi hl hin hroom).trans ?_)
  rw [ht, hc]
  exact if_pos (hnone ▸ rfl)

/-- Settles O25: with every check passed the entry takes the state of its kind in the lowest FREE slot. -/
theorem createEntry : Obligations.CreateEntry := by
  intro s p tag args a id h ha hline hroom hfree hlower e t made
  have hid := (s.lowestFree_eq_some_iff id).2 ⟨hfree, hlower⟩
  have hl : ¬s.LineLost p a := fun ⟨x, hx, hlost⟩ => by
    rw [hline x hx] at hlost
    cases hlost
  have hgen : (t.slot id).gen = (s.slot id).gen + 1 := by
    rw [State.slot_allocate, if_pos rfl]
    rfl
  have done : ∀ u, s.createCheck p a = none → t.enter id e = u → (u.slot id).gen = (t.slot id).gen → made u :=
    fun u hcheck hu hg => exec_createEntry_made h ha hcheck hid hu (hg.trans hgen)
  have armed : ∀ due late, ((t.armMono id e due late).slot id).gen = (t.slot id).gen := fun due late => by
    rw [State.slot_armMono, if_pos rfl]
  have parked : ∀ st, ((t.park id e st).slot id).gen = (t.slot id).gen := fun st => by
    rw [State.slot_park, if_pos rfl]
  cases ht : a.timing with
  | once due =>
    refine done _ ?_ ?_ (armed _ _)
    · exact (State.createCheck_last (by simp [CreateArgs.Impossible, ht]) hl (by simp [State.InputLost, ht]) hroom).trans
        (by rw [ht])
    · simp only [State.enter, e, ht]
      rfl
  | periodic due first period skips =>
    refine done _ ?_ ?_ (armed _ _)
    · exact (State.createCheck_last (by simp [CreateArgs.Impossible, ht]) hl (by simp [State.InputLost, ht]) hroom).trans
        (by rw [ht])
    · simp only [State.enter, e, ht]
      rfl
  | pattern pat next policy skips =>
    intro hp
    have hcheck := State.createCheck_last (s := s) (p := p) (a := a) (by simp [CreateArgs.Impossible, ht, hp]) hl
      (by simp [State.InputLost, ht]) hroom
    rw [ht] at hcheck
    have hcivil : t.civil = s.civil := rfl
    refine ⟨fun hc => done _ ?_ ?_ (parked _), fun c m hc hm => done _ ?_ ?_ ?_⟩
    · rw [hcheck, hc]
    · simp only [State.enter, e, ht, hcivil, hc]
    · rw [hcheck, hc]
      simp only [hm, Option.isNone_some, Bool.false_eq_true, if_false]
    · simp only [State.enter, e, ht, hcivil, hc, hm, State.placeAt]
    · rw [State.slot_armCivil, if_pos rfl]
  | afterCapture i delay rearm due =>
    intro hi
    refine done _ ?_ ?_ (parked _)
    · exact (State.createCheck_last (by simp [CreateArgs.Impossible, ht]) hl (by simp [State.InputLost, ht, hi])
        hroom).trans (by rw [ht])
    · simp only [State.enter, e, ht]

/-! ### Requests that carry an entry handle (R44) -/

/-- What R44 asks of a handle: the id of an entry of the port, with the generation it was allocated with. -/
theorem withEntry_refused {s : State} {p : Port} {idByte gen : Byte} (run : EntryId → Entry → State → State × Reply) :
    (64 ≤ idByte.toNat → withEntry p run [idByte, gen] s = refuse s .range) ∧
    ∀ id : EntryId, idByte.toNat = id.val →
      ((s.slot id).entry = none ∨ (s.slot id).gen ≠ gen → withEntry p run [idByte, gen] s = refuse s .noEntry) ∧
      ∀ e : Entry, (s.slot id).entry = some e → (s.slot id).gen = gen → e.owner ≠ p →
        withEntry p run [idByte, gen] s = refuse s .notOwner := by
  rw [withEntry, withLength_eq (by rfl)]
  simp only [byteAt_zero, byteAt_cons]
  refine ⟨fun h => ?_, fun id hid => ?_⟩
  · have hout : decodeId idByte = none := dif_neg (by omega)
    simp only [hout]
  · have hin : decodeId idByte = some id := (dif_pos (by omega)).trans (congrArg some (Fin.ext hid))
    simp only [hin]
    refine ⟨fun h => ?_, fun e he hg ho => ?_⟩
    · cases he : (s.slot id).entry with
      | none => rfl
      | some e =>
        rw [he] at h
        exact if_pos (h.resolve_left (Option.some_ne_none e))
    · simp only [he]
      exact (if_neg (not_not.2 hg)).trans (if_pos ho)

/-- Settles O28: the four requests check their handle alike. -/
theorem entryHandleChecks : Obligations.EntryHandleChecks := by
  intro s c p tag code args hc hcode h refused
  obtain ⟨run, hexec⟩ : ∃ run, exec c s = .next (s.serve p code (withEntry p run)) := by
    have hr := h.1
    cases c with
    | queryEntry q => cases hc; exact ⟨_, execQueryEntry_released p hr⟩
    | cancelEntry q => cases hc; exact ⟨_, execCancelEntry_released p hr⟩
    | suspendEntry q => cases hc; exact ⟨_, execSuspendEntry_released p hr⟩
    | resumeEntry q => cases hc; exact ⟨_, execResumeEntry_released p hr⟩
    | _ => cases hc <;> simp at hcode
  rw [State.serve_of_requested h] at hexec
  have answered : ∀ st, withEntry p run args (s.takeRequest p) = refuse (s.takeRequest p) st → refused st := fun st hst => by
    rw [hst] at hexec
    exact hexec
  refine ⟨fun hlen => answered _ (withLength_ne hlen), ?_⟩
  rintro idByte gen rfl
  obtain ⟨hrange, hslot⟩ := withEntry_refused (s := s.takeRequest p) (p := p) (idByte := idByte) (gen := gen) run
  refine ⟨fun hb => answered _ (hrange hb), fun id hid => ?_⟩
  obtain ⟨hnone, hother⟩ := hslot id hid
  exact ⟨fun hs => answered _ (hnone hs), fun e he hg ho => answered _ (hother e he hg ho)⟩

section Handle

variable {s : State} {p : Port} {tag code : Byte} {id : EntryId} {e : Entry}

/-- A request with the handle of one of the port's entries is carried out on it. -/
theorem State.serve_withEntry (h : Requested s p tag code [BitVec.ofNat 8 id.val, (s.slot id).gen])
    (he : (s.slot id).entry = some e) (ho : e.owner = p) (run : EntryId → Entry → State → State × Reply) :
    s.serve p code (withEntry p run) =
      (run id e (s.takeRequest p)).1.respond p tag code (run id e (s.takeRequest p)).2 := by
  have hrun : withEntry p run [BitVec.ofNat 8 id.val, (s.slot id).gen] (s.takeRequest p) = run id e (s.takeRequest p) :=
    withEntry_of_owner (s := s.takeRequest p) run he ho
  rw [State.serve_of_requested h, hrun]

end Handle

/-! ### QUERY_ENTRY and LIST_ENTRIES (R57, R58) -/

/-- The record: what every entry has, then the action, the due and the part of the kind. -/
theorem Entry.bytes_eq (e : Entry) (h : Handle) :
    e.bytes h =
      [BitVec.ofNat 8 h.id.val, h.gen, BitVec.ofNat 8 e.owner.val, e.timing.kindCode, e.state.code,
        flagByte [e.action.isSome, e.timing.due.isSome, e.timing.next.isSome]] ++
      toBytes 2 e.remaining ++ [e.notify.code] ++ toBytes 4 e.tag.toNat ++ actionBytes e.action ++
      (dueBytes e.timing.due ++ e.timing.partBytes) := by
  simp only [Entry.bytes, Handle.bytes, portByte, List.append_assoc, List.cons_append, List.nil_append]

theorem State.serve_queryEntry {s : State} {p : Port} {tag : Byte} {id : EntryId} {e : Entry}
    (h : Requested s p tag 0x11 [BitVec.ofNat 8 id.val, (s.slot id).gen]) (he : (s.slot id).entry = some e)
    (ho : e.owner = p) :
    exec (.queryEntry p) s = .next ((s.takeRequest p).respond p tag 0x11
      { status := .ok, results := e.bytes { id := id, gen := (s.slot id).gen }, resets := false }) := by
  rw [execQueryEntry_released p h.1, State.serve_withEntry h he ho]
  rfl

/-- Settles O29: the record by the entry's kind, and the list in id order. -/
theorem queryAndListEntries : Obligations.QueryAndListEntries := by
  refine ⟨fun s p tag id e h he ho => ?_, fun s p tag h => ?_⟩
  · rw [State.serve_queryEntry h he ho, Entry.bytes_eq]
    subst ho
    refine congrArg (fun results => Host.Outcome.next ((s.takeRequest e.owner).respond e.owner tag 0x11
      { status := .ok, results := results, resets := false })) ?_
    refine congrArg (HAppend.hAppend (_ : List Byte)) ?_
    generalize e.timing = timing
    cases timing with
    | once due => exact List.append_nil (toBytes 8 due)
    | periodic due first period skips =>
      have hassoc : toBytes 8 due ++ (toBytes 8 first ++ toBytes 4 period ++ toBytes 1 skips) =
          toBytes 8 due ++ toBytes 8 first ++ toBytes 4 period ++ toBytes 1 skips := by
        simp only [List.append_assoc]
      exact hassoc
    | pattern pat next policy skips => rfl
    | afterCapture i delay rearm due => rfl
  · intro ids
    rw [execListEntries_released p h.1, State.serve_withLength h (by rfl)]
    rfl

/-! ### CANCEL_ENTRY, SUSPEND_ENTRY and RESUME_ENTRY (R45, R59 to R62) -/

/-- Settles O30: the entry found by its handle is freed, or parked unless it is SUSPENDED. -/
theorem cancelAndSuspendEntry : Obligations.CancelAndSuspendEntry := by
  intro s p tag id e he ho
  refine ⟨fun h => ?_, fun h => ?_⟩
  · rw [execCancelEntry_released p h.1, State.serve_withEntry h he ho]
  · rw [execSuspendEntry_released p h.1, State.serve_withEntry h he ho]
    refine ⟨fun hs => ?_, fun hs => ?_⟩
    · simp only [hs, if_true, refuse]
    · simp only [hs, if_false]

/-- Settles O31: a SUSPENDED entry is resumed by its kind; a PATTERN entry is placed at its next match. -/
theorem resumeEntry : Obligations.ResumeEntry := by
  intro s p tag id e h he ho t resumed
  have hexec : exec (.resumeEntry p) s = .next
      ((if e.state = .suspended then t.resume id e else refuse t .wrongState).1.respond p tag 0x15
        (if e.state = .suspended then t.resume id e else refuse t .wrongState).2) := by
    rw [execResumeEntry_released p h.1, State.serve_withEntry h he ho]
  refine ⟨fun hs => ?_, fun hs => ?_⟩
  · rw [hexec, if_neg hs]
    rfl
  · rw [if_pos hs] at hexec
    have answered : ∀ u r, t.resume id e = (u, r) → exec (.resumeEntry p) s = .next (u.respond p tag 0x15 r) := by
      intro u r hu
      rw [hexec, hu]
    have hcivil : t.civil = s.civil := rfl
    have hplaced := State.placeAt_placedAt (s := t) he e
    cases ht : e.timing with
    | once due =>
      refine answered _ _ ?_
      simp only [State.resume, ht]
      rfl
    | periodic due first period skips =>
      refine answered _ _ ?_
      simp only [State.resume, ht]
      rfl
    | pattern pat next policy skips =>
      refine ⟨fun hc => answered _ _ ?_, fun c m hc hm => ?_, fun c hc hm => ?_⟩
      · simp only [State.resume, ht, hcivil, hc]
      · have harmed := (hplaced (pat.atOrAfter c)).armed m hm
        refine answered _ _ ?_
        simp only [State.resume, ht, hcivil, hc, harmed]
      · have hended := (hplaced (pat.atOrAfter c)).ended hm
        rw [ho] at hended
        refine answered _ _ ?_
        simp only [State.resume, ht, hcivil, hc, hended]
        rfl
    | afterCapture i delay rearm due =>
      have howns : t.ownsInput e.owner i = s.ownsInput p i := by rw [State.takeRequest_ownsInput, ho]
      refine ⟨fun hi => answered _ _ ?_, fun hi => answered _ _ ?_⟩
      · simp only [State.resume, ht, howns, hi, if_true]
      · simp only [State.resume, ht, howns, hi, Bool.false_eq_true, if_false, refuse]

end Sys2Proof.Machine
end

section
/-! SUPPORT. The argument field of CREATE_ENTRY: what stands at a position of it, each part of Table 10-10 read back from
its bytes and written again from what was read, and the length the parts add up to (R50 to R55, R194).
-/

namespace Sys2Proof.Machine

/-! ### Positions of an argument field (R194) -/

theorem toBytes_getElem? (n v i : Nat) (h : i < n) : (toBytes n v)[i]? = some (BitVec.ofNat 8 (v / 256 ^ i)) := by
  induction n generalizing v i with
  | zero => omega
  | succ n ih =>
    cases i with
    | zero => simp [toBytes]
    | succ i => simp [toBytes, ih (v / 256) i (by omega), Nat.div_div_eq_div_mul, Nat.pow_succ']

theorem toBytes_fromBytes (bs : List Byte) : toBytes bs.length (fromBytes bs) = bs := by
  induction bs with
  | nil => rfl
  | cons b bs ih =>
    have hb : b.toNat < 256 := b.isLt
    have hdiv : (b.toNat + 256 * fromBytes bs) / 256 = fromBytes bs := by omega
    have hlow : BitVec.ofNat 8 (b.toNat + 256 * fromBytes bs) = b := by
      apply BitVec.eq_of_toNat_eq
      rw [BitVec.toNat_ofNat]
      omega
    rw [List.length_cons, fromBytes, toBytes, hdiv, hlow, ih]

theorem toBytes_one (b : Byte) : toBytes 1 b.toNat = [b] := by
  simp [toBytes]

section Position

variable {args rest : List Byte} {at0 : Nat}

/-- The position after a part that stands at a position. -/
theorem drop_after {part : List Byte} (h : args.drop at0 = part ++ rest) : args.drop (at0 + part.length) = rest := by
  rw [← List.drop_drop, h, List.drop_left]

theorem byteAt_of_drop {b : Byte} (h : args.drop at0 = b :: rest) : byteAt args at0 = b := by
  have hget : args[at0]? = some b := by rw [← List.head?_drop, h, List.head?_cons]
  rw [byteAt, List.getD_eq_getElem?_getD, hget, Option.getD_some]

theorem drop_succ_of_drop {b : Byte} (h : args.drop at0 = b :: rest) : args.drop (at0 + 1) = rest :=
  drop_after (part := [b]) h

theorem fieldAt_of_drop {n v : Nat} (h : args.drop at0 = toBytes n v ++ rest) (hv : v < 256 ^ n) :
    fieldAt args at0 n = v := by
  rw [fieldAt, h, List.take_left' (toBytes_length n v), fromBytes_toBytes, Nat.mod_eq_of_lt hv]

theorem drop_field_of_drop {n v : Nat} (h : args.drop at0 = toBytes n v ++ rest) : args.drop (at0 + n) = rest := by
  have := drop_after h
  rwa [toBytes_length] at this

theorem drop_eq_byte (h : at0 < args.length) : args.drop at0 = byteAt args at0 :: args.drop (at0 + 1) := by
  rw [List.drop_eq_getElem_cons h, byteAt, List.getD_eq_getElem _ _ h]

theorem drop_eq_field (n : Nat) (h : at0 + n ≤ args.length) :
    args.drop at0 = toBytes n (fieldAt args at0 n) ++ args.drop (at0 + n) := by
  have hlen : ((args.drop at0).take n).length = n := by
    rw [List.length_take, List.length_drop]
    omega
  have hfield := toBytes_fromBytes ((args.drop at0).take n)
  rw [hlen] at hfield
  rw [fieldAt, hfield, ← List.drop_drop, List.take_append_drop]

end Position

/-! ### Codes of Table 10-5 -/

theorem decodeNotify_eq_some_iff (b : Byte) (m : NotifyMode) : decodeNotify b = some m ↔ b = m.code := by
  revert b
  cases m <;> decide

theorem decodePolicy_eq_some_iff (b : Byte) (policy : SkipPolicy) : decodePolicy b = some policy ↔ b = policy.code := by
  revert b
  cases policy <;> decide

theorem decodeYesNo_eq_some_iff (b : Byte) (yes : Bool) : decodeYesNo b = some yes ↔ b = boolByte yes := by
  revert b
  cases yes <;> decide

theorem decodeInput_eq_some_iff (b : Byte) (i : Input) : decodeInput b = some i ↔ b = BitVec.ofNat 8 i.val := by
  revert b
  revert i
  decide

theorem decodeLine_eq_some_iff (b : Byte) (l : Line) : decodeLine b = some l ↔ b = BitVec.ofNat 8 l.val := by
  revert b
  revert l
  decide

theorem boolByte_getLsbD_zero (b : Bool) : (boolByte b).getLsbD 0 = b := by
  cases b <;> rfl

theorem boolByte_of_getLsbD {b : Byte} (h : ¬1 < b.toNat) : boolByte (b.getLsbD 0) = b := by
  revert b
  decide

/-! ### The line action (R51, R113, Table 10-10) -/

/-- Table 10-5: the code of an action. -/
def Action.code : Action → Byte
  | .toActive => 0
  | .toIdle => 1
  | .toggle => 2
  | .pulse _ => 3

/-- R51, R113: the width field is the width of a PULSE, in its range, and any value with another action. -/
def Action.TakesWidth (a : Action) (width : Nat) : Prop := ∀ w, a = .pulse w → width = w ∧ 1 ≤ w ∧ w ≤ 1000000

theorem decodeAction_eq_some_iff (b : Byte) (width : Nat) (a : Action) :
    decodeAction b width = some a ↔ b = a.code ∧ a.TakesWidth width := by
  constructor
  · intro h
    unfold decodeAction at h
    split_ifs at h with h0 h1 h2 h3 hw
    · cases h
      exact ⟨h0, nofun⟩
    · cases h
      exact ⟨h1, nofun⟩
    · cases h
      exact ⟨h2, nofun⟩
    · cases h
      refine ⟨h3, fun w hp => ?_⟩
      cases hp
      exact ⟨rfl, hw⟩
  · rintro ⟨rfl, htakes⟩
    cases a with
    | toActive => rfl
    | toIdle => rfl
    | toggle => rfl
    | pulse w =>
      obtain ⟨rfl, hw⟩ := htakes w rfl
      exact if_pos hw

theorem LineAction.argument_eq {x : LineAction} {width : Nat} (h : x.action.TakesWidth width) :
    x.argument width = BitVec.ofNat 8 x.line.val :: x.action.code :: toBytes 4 width := by
  unfold LineAction.argument
  cases ha : x.action with
  | toActive => rfl
  | toIdle => rfl
  | toggle => rfl
  | pulse w =>
    obtain ⟨rfl, -⟩ := h w ha
    rfl

theorem decodeLineAction_eq_some_iff (args : List Byte) (at0 : Nat) (x : LineAction) :
    decodeLineAction args at0 = some x ↔
      byteAt args at0 = BitVec.ofNat 8 x.line.val ∧ byteAt args (at0 + 1) = x.action.code ∧
        x.action.TakesWidth (fieldAt args (at0 + 2) 4) := by
  obtain ⟨l, a⟩ := x
  rw [← decodeAction_eq_some_iff, ← decodeLine_eq_some_iff]
  unfold decodeLineAction
  cases decodeLine (byteAt args at0) <;>
    cases decodeAction (byteAt args (at0 + 1)) (fieldAt args (at0 + 2) 4) <;> simp

/-- The line action part of Table 10-10, which only a creation with a line action has. -/
def actionArgument (action : Option LineAction) (width : Nat) : List Byte :=
  match action with
  | some x => x.argument width
  | none => []

/-- R51: the width field of an optional line action. -/
def ActionTakesWidth (action : Option LineAction) (width : Nat) : Prop :=
  ∀ x, action = some x → x.action.TakesWidth width

section OptionalAction

variable {args rest : List Byte} {action : Option LineAction} {width : Nat}

theorem actionArgument_length (h : ActionTakesWidth action width) :
    (actionArgument action width).length = if action.isSome then 6 else 0 := by
  cases action with
  | none => rfl
  | some x =>
    rw [actionArgument, LineAction.argument_eq (h x rfl)]
    simp

theorem actionLength_of_flag (hflag : (byteAt args 1).getLsbD 0 = action.isSome) (h : ActionTakesWidth action width) :
    actionLength args = (actionArgument action width).length := by
  rw [actionLength, hflag, actionArgument_length h]

theorem decodeOptionalAction_of_drop (hflag : (byteAt args 1).getLsbD 0 = action.isSome)
    (htakes : ActionTakesWidth action width) (hwidth : width < 4294967296)
    (h : args.drop 9 = actionArgument action width ++ rest) : decodeOptionalAction args = some action := by
  rw [decodeOptionalAction, hflag]
  cases action with
  | none => rfl
  | some x =>
    rw [actionArgument, LineAction.argument_eq (htakes x rfl)] at h
    have hcode := drop_succ_of_drop h
    have hfield := drop_succ_of_drop hcode
    have hdecode : decodeLineAction args 9 = some x := by
      refine (decodeLineAction_eq_some_iff args 9 x).2 ⟨byteAt_of_drop h, byteAt_of_drop hcode, ?_⟩
      rw [fieldAt_of_drop hfield hwidth]
      exact htakes x rfl
    rw [hdecode]
    rfl

/-- What was taken as the optional line action stands in the field, with some width. -/
theorem drop_eq_actionArgument (hlen : 9 + actionLength args ≤ args.length)
    (h : decodeOptionalAction args = some action) :
    (byteAt args 1).getLsbD 0 = action.isSome ∧ ∃ width, width < 4294967296 ∧ ActionTakesWidth action width ∧
      args.drop 9 = actionArgument action width ++ args.drop (9 + actionLength args) := by
  unfold decodeOptionalAction at h
  unfold actionLength at hlen ⊢
  split_ifs at h with hflag
  · obtain ⟨x, hx, rfl⟩ := Option.map_eq_some_iff.1 h
    rw [if_pos hflag] at hlen ⊢
    obtain ⟨hline, hcode, htakes⟩ := (decodeLineAction_eq_some_iff args 9 x).1 hx
    refine ⟨hflag, fieldAt args 11 4, fieldAt_lt args 11 4, ?_, ?_⟩
    · rintro y ⟨⟩
      exact htakes
    · rw [actionArgument, LineAction.argument_eq htakes, drop_eq_byte (by omega : 9 < args.length),
        drop_eq_byte (by omega : 10 < args.length), drop_eq_field 4 (by omega : 11 + 4 ≤ args.length), hline, hcode]
      rfl
  · cases h
    rw [if_neg hflag]
    exact ⟨Bool.eq_false_iff.2 hflag, 0, by decide, nofun, rfl⟩

end OptionalAction

/-! ### The pattern (R54, Table 10-8) -/

section Optional

variable {args rest : List Byte} {at0 : Nat}

theorem optionalByte_length (o : Option Nat) : (optionalByte o).length = o.isSome.toNat := by
  cases o <;> simp [optionalByte]

theorem optionalAt_of_drop {o : Option Nat} (ho : ∀ v, o = some v → v < 256)
    (h : args.drop at0 = optionalByte o ++ rest) :
    optionalAt args o.isSome at0 = (o, at0 + o.isSome.toNat) ∧ args.drop (at0 + o.isSome.toNat) = rest := by
  have hafter := drop_after h
  rw [optionalByte_length] at hafter
  refine ⟨?_, hafter⟩
  cases o with
  | none => rfl
  | some v =>
    have hv : fieldAt args at0 1 = v := fieldAt_of_drop h (ho v rfl)
    simp [optionalAt, hv]

theorem optionalAt_fst_isSome (present : Bool) : (optionalAt args present at0).1.isSome = present := by
  cases present <;> rfl

theorem optionalAt_snd (present : Bool) : (optionalAt args present at0).2 = at0 + present.toNat := by
  cases present <;> rfl

theorem drop_eq_optionalByte (present : Bool) (hlen : (optionalAt args present at0).2 ≤ args.length) :
    args.drop at0 =
      optionalByte (optionalAt args present at0).1 ++ args.drop (optionalAt args present at0).2 := by
  cases present with
  | false => rfl
  | true => exact drop_eq_field 1 hlen

end Optional

/-- The presence mask of a pattern. -/
def Pattern.mask (p : Pattern) : Byte :=
  flagByte [p.month.isSome, p.day.isSome, p.weekday.isSome, p.hour.isSome, p.minute.isSome, p.second.isSome]

theorem flagByte_six_getLsbD (a b c d e f : Bool) :
    (flagByte [a, b, c, d, e, f]).getLsbD 0 = a ∧ (flagByte [a, b, c, d, e, f]).getLsbD 1 = b ∧
    (flagByte [a, b, c, d, e, f]).getLsbD 2 = c ∧ (flagByte [a, b, c, d, e, f]).getLsbD 3 = d ∧
    (flagByte [a, b, c, d, e, f]).getLsbD 4 = e ∧ (flagByte [a, b, c, d, e, f]).getLsbD 5 = f ∧
    (flagByte [a, b, c, d, e, f]).toNat < 64 := by
  revert a b c d e f
  decide

theorem flagByte_getLsbD_of_lt {b : Byte} (h : b.toNat < 64) :
    flagByte [b.getLsbD 0, b.getLsbD 1, b.getLsbD 2, b.getLsbD 3, b.getLsbD 4, b.getLsbD 5] = b := by
  revert b
  decide

theorem Pattern.mask_lt (p : Pattern) : p.mask.toNat < 64 := by
  obtain ⟨-, -, -, -, -, -, h⟩ := flagByte_six_getLsbD p.month.isSome p.day.isSome p.weekday.isSome
    p.hour.isSome p.minute.isSome p.second.isSome
  exact h

theorem Pattern.bytes_length (p : Pattern) : p.bytes.length = 5 + presenceCount p.mask := by
  obtain ⟨m0, m1, m2, m3, m4, m5, -⟩ := flagByte_six_getLsbD p.month.isSome p.day.isSome p.weekday.isSome
    p.hour.isSome p.minute.isSome p.second.isSome
  simp only [Pattern.bytes, List.length_cons, List.length_append, optionalByte_length, toBytes_length, presenceCount,
    Pattern.mask, m0, m1, m2, m3, m4, m5]
  omega

/-- R54: a field of a pattern in its range is one byte. -/
theorem Pattern.lt_of_inRange {p : Pattern} (h : p.inRange = true) :
    (∀ v, p.month = some v → v < 256) ∧ (∀ v, p.day = some v → v < 256) ∧ (∀ v, p.weekday = some v → v < 256) ∧
    (∀ v, p.hour = some v → v < 256) ∧ (∀ v, p.minute = some v → v < 256) ∧ (∀ v, p.second = some v → v < 256) ∧
    p.micro < 256 ^ 4 := by
  simp only [Pattern.inRange, Bool.and_eq_true, Option.all_eq_true, decide_eq_true_eq] at h
  obtain ⟨⟨⟨⟨⟨⟨hmonth, hday⟩, hweekday⟩, hhour⟩, hminute⟩, hsecond⟩, hmicro⟩ := h
  refine ⟨fun v hv => ?_, fun v hv => ?_, fun v hv => ?_, fun v hv => ?_, fun v hv => ?_, fun v hv => ?_, by omega⟩
  · exact (hmonth v hv).2.trans_lt (by decide)
  · exact (hday v hv).2.trans_lt (by decide)
  · exact (hweekday v hv).trans_lt (by decide)
  · exact (hhour v hv).trans_lt (by decide)
  · exact (hminute v hv).trans_lt (by decide)
  · exact (hsecond v hv).trans_lt (by decide)

section PatternPart

variable {args rest : List Byte} {at0 : Nat}

theorem patternAt_snd : (patternAt args at0).2 = at0 + 5 + presenceCount (byteAt args at0) := by
  simp only [patternAt, optionalAt_snd, presenceCount]
  omega

theorem patternAt_mask (h : (byteAt args at0).toNat < 64) : (patternAt args at0).1.mask = byteAt args at0 := by
  simp only [Pattern.mask, patternAt, optionalAt_fst_isSome]
  exact flagByte_getLsbD_of_lt h

/-- A pattern in its range is read back, and the position after it is that of the rest. -/
theorem patternAt_of_drop {p : Pattern} (hp : p.inRange = true) (h : args.drop at0 = p.bytes ++ rest) :
    byteAt args at0 = p.mask ∧ (patternAt args at0).1 = p ∧ args.drop (patternAt args at0).2 = rest := by
  obtain ⟨hmonth, hday, hweekday, hhour, hminute, hsecond, hmicro⟩ := Pattern.lt_of_inRange hp
  obtain ⟨m0, m1, m2, m3, m4, m5, -⟩ := flagByte_six_getLsbD p.month.isSome p.day.isSome p.weekday.isSome
    p.hour.isSome p.minute.isSome p.second.isSome
  simp only [Pattern.bytes, List.cons_append, List.append_assoc] at h
  have hmask : byteAt args at0 = p.mask := byteAt_of_drop h
  have h := drop_succ_of_drop h
  obtain ⟨e0, h⟩ := optionalAt_of_drop hmonth h
  obtain ⟨e1, h⟩ := optionalAt_of_drop hday h
  obtain ⟨e2, h⟩ := optionalAt_of_drop hweekday h
  obtain ⟨e3, h⟩ := optionalAt_of_drop hhour h
  obtain ⟨e4, h⟩ := optionalAt_of_drop hminute h
  obtain ⟨e5, h⟩ := optionalAt_of_drop hsecond h
  refine ⟨hmask, ?_, ?_⟩ <;> simp only [patternAt, hmask, Pattern.mask, m0, m1, m2, m3, m4, m5, e0, e1, e2, e3, e4, e5]
  · rw [fieldAt_of_drop h hmicro]
  · exact drop_field_of_drop h

/-- What was taken as the pattern stands in the field. -/
theorem drop_eq_patternBytes (hmask : (byteAt args at0).toNat < 64) (hlen : (patternAt args at0).2 ≤ args.length) :
    args.drop at0 = (patternAt args at0).1.bytes ++ args.drop (patternAt args at0).2 := by
  have hbytes : (patternAt args at0).1.bytes = (patternAt args at0).1.mask :: _ := rfl
  rw [patternAt_snd, presenceCount] at hlen
  rw [hbytes, patternAt_mask hmask, drop_eq_byte (by omega : at0 < args.length)]
  simp only [patternAt, List.cons_append, List.append_assoc]
  rw [← drop_eq_field 4, ← drop_eq_optionalByte, ← drop_eq_optionalByte, ← drop_eq_optionalByte,
    ← drop_eq_optionalByte, ← drop_eq_optionalByte, ← drop_eq_optionalByte] <;>
  · simp only [optionalAt_snd]
    omega

end PatternPart

/-! ### The part of the kind (R51 to R55, Table 10-10) -/

/-- R51 to R55: the timing of a new entry. -/
def Timing.newInRange : Timing → Prop
  | .once due => due < Config.runTimeLimit
  | .periodic due first period skips =>
    due = first ∧ first < Config.runTimeLimit ∧ 100 ≤ period ∧ period < 4294967296 ∧ skips = 0
  | .pattern pat next _ skips => pat.inRange = true ∧ next = none ∧ skips = 0
  | .afterCapture _ delay _ due => delay < 4294967296 ∧ due = none

theorem CreateArgs.inRange_iff (a : CreateArgs) (given : Nat) :
    a.inRange given ↔ given < 65536 ∧
      (∀ x w, a.action = some x → x.action = .pulse w → 1 ≤ w ∧ w ≤ 1000000) ∧
      a.timing.newInRange ∧ a.remaining = heldRemaining a.timing given := by
  unfold CreateArgs.inRange
  refine and_congr_right fun _ => and_congr_right fun _ => ?_
  cases a.timing <;> simp only [Timing.newInRange, heldRemaining] <;> tauto

section KindPart

variable {args : List Byte} {t : Timing}

theorem Timing.kindCode_le (t : Timing) : t.kindCode.toNat ≤ 3 := by
  cases t <;> simp [Timing.kindCode]

/-- The bytes after the line action part that the kind and the presence mask ask for. -/
def timingLength (args : List Byte) (at0 : Nat) : Nat :=
  match (byteAt args 0).toNat with
  | 0 => 8
  | 1 => 12
  | 2 => 6 + presenceCount (byteAt args at0)
  | _ => 6

theorem createLength_eq (args : List Byte) :
    createLength args = 9 + actionLength args + timingLength args (9 + actionLength args) := by
  unfold createLength timingLength
  generalize (byteAt args 0).toNat = kind
  rcases kind with _ | _ | _ | kind
  · rfl
  · rfl
  · exact Nat.add_assoc _ _ _
  · rfl

/-- A timing in its range is read back from the end of the field. -/
theorem decodeTiming_of_drop {at0 : Nat} (hkind : byteAt args 0 = t.kindCode) (ht : t.newInRange)
    (h : args.drop at0 = t.argument) :
    decodeTiming args at0 = some t ∧ t.argument.length = timingLength args at0 := by
  rw [← List.append_nil t.argument] at h
  cases t with
  | once due =>
    have hdue : fieldAt args at0 8 = due := fieldAt_of_drop h ht
    simp [decodeTiming, timingLength, hkind, Timing.kindCode, Timing.argument, hdue]
  | periodic due first period skips =>
    obtain ⟨rfl, hfirst, hperiod, hlt, rfl⟩ := ht
    simp only [Timing.argument, List.append_assoc] at h
    have e0 : fieldAt args at0 8 = due := fieldAt_of_drop h hfirst
    have e1 : fieldAt args (at0 + 8) 4 = period := fieldAt_of_drop (drop_field_of_drop h) hlt
    simp [decodeTiming, timingLength, hkind, Timing.kindCode, Timing.argument, e0, e1, hperiod]
  | pattern pat next policy skips =>
    obtain ⟨hpat, rfl, rfl⟩ := ht
    simp only [Timing.argument, List.append_assoc] at h
    obtain ⟨hmask, hread, hrest⟩ := patternAt_of_drop hpat h
    have hpolicy : decodePolicy (byteAt args (patternAt args at0).2) = some policy :=
      (decodePolicy_eq_some_iff _ _).2 (byteAt_of_drop hrest)
    have hdecode : decodeTiming args at0 = some (.pattern pat none policy 0) := by
      simp [decodeTiming, hkind, Timing.kindCode, hread, hpolicy, hmask, pat.mask_lt, hpat]
    refine ⟨hdecode, ?_⟩
    simp [timingLength, hkind, Timing.kindCode, hmask, Timing.argument, Pattern.bytes_length]
    omega
  | afterCapture i delay rearm due =>
    obtain ⟨hdelay, rfl⟩ := ht
    simp only [Timing.argument, List.cons_append, List.append_assoc] at h
    have hfields := drop_succ_of_drop h
    have e0 : decodeInput (byteAt args at0) = some i := (decodeInput_eq_some_iff _ _).2 (byteAt_of_drop h)
    have e1 : fieldAt args (at0 + 1) 4 = delay := fieldAt_of_drop hfields hdelay
    have e2 : decodeYesNo (byteAt args (at0 + 5)) = some rearm :=
      (decodeYesNo_eq_some_iff _ _).2 (byteAt_of_drop (at0 := at0 + 1 + 4) (drop_field_of_drop hfields))
    simp [decodeTiming, timingLength, hkind, Timing.kindCode, Timing.argument, e0, e1, e2]

/-- What was taken as the timing stands at the end of a field of the right length. -/
theorem drop_eq_timingArgument {at0 : Nat} (hlen : args.length = at0 + timingLength args at0)
    (h : decodeTiming args at0 = some t) :
    byteAt args 0 = t.kindCode ∧ t.newInRange ∧ args.drop at0 = t.argument := by
  have hkind : ∀ code : Byte, (byteAt args 0).toNat = code.toNat → byteAt args 0 = code :=
    fun _ => BitVec.eq_of_toNat_eq
  have hend : ∀ n, args.length = at0 + n → args.drop (at0 + n) = [] := fun n hn => List.drop_eq_nil_of_le hn.le
  unfold decodeTiming at h
  dsimp only at h
  split at h
  · next hk =>
    simp only [timingLength, hk] at hlen
    cases h
    refine ⟨hkind 0 hk, fieldAt_lt args at0 8, ?_⟩
    rw [drop_eq_field 8 hlen.ge, hend 8 hlen, List.append_nil]
    rfl
  · next hk =>
    simp only [timingLength, hk] at hlen
    split_ifs at h with hperiod
    cases h
    refine ⟨hkind 1 hk, ⟨rfl, fieldAt_lt args at0 8, hperiod, fieldAt_lt args (at0 + 8) 4, rfl⟩, ?_⟩
    rw [drop_eq_field 8 (by omega), drop_eq_field 4 (by omega), Nat.add_assoc, hend 12 hlen, List.append_nil]
    rfl
  · next hk =>
    simp only [timingLength, hk] at hlen
    have hafter := patternAt_snd (args := args) (at0 := at0)
    split at h
    · next policy hpolicy =>
      split_ifs at h with hr
      obtain ⟨hmask, hrange⟩ := Bool.and_eq_true_iff.1 hr
      cases h
      refine ⟨hkind 2 hk, ⟨hrange, rfl, rfl⟩, ?_⟩
      rw [drop_eq_patternBytes (of_decide_eq_true hmask) (by omega), drop_eq_byte (by omega),
        (decodePolicy_eq_some_iff _ _).1 hpolicy, List.drop_eq_nil_of_le (by omega)]
      rfl
    · cases h
  · next hk =>
    simp only [timingLength, hk] at hlen
    split at h
    · next i rearm hi hrearm =>
      cases h
      refine ⟨hkind 3 hk, ⟨fieldAt_lt args (at0 + 1) 4, rfl⟩, ?_⟩
      rw [drop_eq_byte (by omega), drop_eq_field 4 (by omega), drop_eq_byte (at0 := at0 + 1 + 4) (by omega),
        (decodeInput_eq_some_iff _ _).1 hi, (decodeYesNo_eq_some_iff _ _).1 hrearm,
        List.drop_eq_nil_of_le (i := at0 + 1 + 4 + 1) (by omega)]
      rfl
    · cases h
  · cases h

end KindPart

/-! ### The whole field (R50 steps 1 and 2) -/

/-- What a field that is taken has passed, and what is taken from it. -/
theorem decodeCreate_eq_ok_iff (args : List Byte) (a : CreateArgs) :
    decodeCreate args = .ok a ↔
      9 ≤ args.length ∧ (byteAt args 0).toNat ≤ 3 ∧ args.length = createLength args ∧ (byteAt args 1).toNat ≤ 1 ∧
      decodeNotify (byteAt args 4) = some a.notify ∧ decodeOptionalAction args = some a.action ∧
      decodeTiming args (9 + actionLength args) = some a.timing ∧
      a.remaining = heldRemaining a.timing (fieldAt args 2 2) ∧ a.tag = BitVec.ofNat 32 (fieldAt args 5 4) := by
  constructor
  · intro h
    unfold decodeCreate at h
    split_ifs at h with hshort hkind hlen hflag
    split at h
    · next hnotify haction htiming =>
      cases h
      exact ⟨not_lt.1 hshort, not_lt.1 hkind, not_not.1 hlen, not_lt.1 hflag, hnotify, haction, htiming, rfl, rfl⟩
    · cases h
  · rintro ⟨hshort, hkind, hlen, hflag, hnotify, haction, htiming, hremaining, htag⟩
    rw [decodeCreate, if_neg (not_lt.2 hshort), if_neg (not_lt.2 hkind), if_neg (not_not.2 hlen),
      if_neg (not_lt.2 hflag), hnotify, haction, htiming]
    dsimp only
    rw [← hremaining, ← htag]

theorem decodeCreate_eq_malformed_iff (args : List Byte) :
    decodeCreate args = .error .malformed ↔
      args.length < 9 ∨ ((byteAt args 0).toNat ≤ 3 ∧ args.length ≠ createLength args) := by
  unfold decodeCreate
  split_ifs with hshort hkind hlen hflag
  · simp [hshort]
  · simp [hshort, hkind]
  · simp [hlen, not_lt.1 hkind]
  · simp [hshort, hlen]
  · have hnot : ¬(args.length < 9 ∨ ((byteAt args 0).toNat ≤ 3 ∧ args.length ≠ createLength args)) := by omega
    refine iff_of_false (fun h => ?_) hnot
    split at h <;> cases h

theorem decodeCreate_error {args : List Byte} {st : Status} (h : decodeCreate args = .error st) :
    st = .malformed ∨ st = .range := by
  unfold decodeCreate at h
  split_ifs at h
  · cases h
    exact .inl rfl
  · cases h
    exact .inr rfl
  · cases h
    exact .inl rfl
  · cases h
    exact .inr rfl
  · split at h <;> cases h
    exact .inr rfl

theorem CreateArgs.argument_eq (a : CreateArgs) (given width : Nat) :
    a.argument given width = a.timing.kindCode :: boolByte a.action.isSome :: (toBytes 2 given ++ a.notify.code ::
      (toBytes 4 a.tag.toNat ++ (actionArgument a.action width ++ a.timing.argument))) := by
  simp only [CreateArgs.argument, List.append_assoc, List.cons_append, List.nil_append]
  rfl

/-- Arguments in their ranges are taken as they were sent. -/
theorem decodeCreate_argument {a : CreateArgs} {given width : Nat} (hin : a.inRange given)
    (hwidth : width < 4294967296) (hpulse : ∀ x w, a.action = some x → x.action = .pulse w → width = w) :
    decodeCreate (a.argument given width) = .ok a := by
  obtain ⟨hgiven, hrange, htiming, hremaining⟩ := (a.inRange_iff given).1 hin
  have htakes : ActionTakesWidth a.action width := fun x hx w hw => ⟨hpulse x w hx hw, hrange x w hx hw⟩
  generalize hargs : a.argument given width = args
  rw [CreateArgs.argument_eq] at hargs
  have hkindAt : args.drop 0 = _ := hargs.symm
  have hflagAt : args.drop 1 = _ := drop_succ_of_drop hkindAt
  have hgivenAt : args.drop 2 = _ := drop_succ_of_drop hflagAt
  have hnotifyAt : args.drop 4 = _ := drop_field_of_drop hgivenAt
  have htagAt : args.drop 5 = _ := drop_succ_of_drop hnotifyAt
  have hactionAt : args.drop 9 = _ := drop_field_of_drop htagAt
  have htimingAt := drop_after hactionAt
  have hflag : (byteAt args 1).getLsbD 0 = a.action.isSome := by
    rw [byteAt_of_drop hflagAt, boolByte_getLsbD_zero]
  have hactionLength := actionLength_of_flag hflag htakes
  rw [← hactionLength] at htimingAt
  obtain ⟨hdecode, htimingLength⟩ := decodeTiming_of_drop (byteAt_of_drop hkindAt) htiming htimingAt
  have hlen : args.length = createLength args := by
    rw [createLength_eq, ← htimingLength, hactionLength, ← hargs]
    simp only [List.length_cons, List.length_append, toBytes_length]
    omega
  refine (decodeCreate_eq_ok_iff args a).2 ⟨?_, ?_, hlen, ?_, ?_, ?_, hdecode, ?_, ?_⟩
  · rw [hlen, createLength_eq]
    omega
  · rw [byteAt_of_drop hkindAt]
    exact a.timing.kindCode_le
  · rw [byteAt_of_drop hflagAt]
    cases a.action.isSome <;> decide
  · exact (decodeNotify_eq_some_iff _ _).2 (byteAt_of_drop hnotifyAt)
  · exact decodeOptionalAction_of_drop hflag htakes hwidth hactionAt
  · rw [fieldAt_of_drop hgivenAt hgiven]
    exact hremaining
  · rw [fieldAt_of_drop htagAt a.tag.isLt, BitVec.ofNat_toNat, BitVec.setWidth_eq]

/-- What is taken from a field was sent in it. -/
theorem argument_of_decodeCreate {args : List Byte} {a : CreateArgs} (h : decodeCreate args = .ok a) :
    ∃ given width : Nat, a.inRange given ∧ width < 4294967296 ∧
      (∀ x w, a.action = some x → x.action = .pulse w → width = w) ∧ args = a.argument given width := by
  obtain ⟨-, -, hlen, hflag, hnotify, haction, htiming, hremaining, htag⟩ := (decodeCreate_eq_ok_iff args a).1 h
  rw [createLength_eq] at hlen
  obtain ⟨hsome, width, hwidth, htakes, hactionAt⟩ := drop_eq_actionArgument (by omega) haction
  obtain ⟨hkind, hnew, htimingAt⟩ := drop_eq_timingArgument hlen htiming
  refine ⟨fieldAt args 2 2, width, (a.inRange_iff _).2 ⟨fieldAt_lt args 2 2, ?_, hnew, hremaining⟩, hwidth,
    fun x w hx hw => (htakes x hx w hw).1, ?_⟩
  · exact fun x w hx hw => (htakes x hx w hw).2
  · have htagNat : a.tag.toNat = fieldAt args 5 4 := by
      rw [htag, BitVec.toNat_ofNat]
      exact Nat.mod_eq_of_lt (fieldAt_lt args 5 4)
    calc args = args.drop 0 := rfl
      _ = byteAt args 0 :: byteAt args 1 :: (toBytes 2 (fieldAt args 2 2) ++ byteAt args 4 ::
            (toBytes 4 (fieldAt args 5 4) ++ args.drop 9)) := by
        rw [drop_eq_byte (by omega), drop_eq_byte (by omega), drop_eq_field 2 (by omega), drop_eq_byte (by omega),
          drop_eq_field 4 (by omega)]
      _ = a.argument (fieldAt args 2 2) width := by
        rw [CreateArgs.argument_eq, hkind, ← hsome, boolByte_of_getLsbD (not_lt.2 hflag),
          (decodeNotify_eq_some_iff _ _).1 hnotify, htagNat, hactionAt, htimingAt]

theorem presenceCount_eq (mask : Byte) :
    presenceCount mask = ((List.range 6).filter (fun i => mask.getLsbD i)).length := by
  revert mask
  decide

/-- Settles O23: each part of the field is read back from its bytes and written again from what was read. -/
theorem createArguments : Obligations.CreateArguments := by
  refine ⟨fun a given width hin hwidth hpulse => decodeCreate_argument hin hwidth hpulse,
    fun args a h => argument_of_decodeCreate h, fun args => ?_,
    fun n v => ⟨toBytes_length n v, fun i hi => toBytes_getElem? n v i hi⟩⟩
  intro kind body fields length
  have hlength : createLength args = length := by
    simp only [createLength, presenceCount_eq]
    rfl
  rw [← hlength]
  exact ⟨decodeCreate_eq_malformed_iff args, fun st => decodeCreate_error⟩

end Sys2Proof.Machine
end
